-- ==== Sys2Proof/Word.lean ====
section
/-! DEFINITION. The word types of SQSYN: nothing but names for the widths the spec gives. -/

namespace Sys2Proof

/-- A 16-bit pattern: a channel register (R11), a `HULL` word (R22), `RNG` (R15), a volume table entry
(R20), an output sample (R40). -/
abbrev Word := BitVec 16

/-- A host command word (R60). -/
abbrev CmdWord := BitVec 32

/-- A feedback mask of the noise generator, `fb[16:0]` (R120). -/
abbrev Mask := BitVec 17

/-- The master volume table: 16 entries of 16 bits (R20). -/
abbrev VolTab := Vector Word 16

end Sys2Proof
end

