-- ==== Sys2Proof/Config.lean ====
section
/-! DEFINITION. The configuration record of an instance (R4), and the one value the spec leaves without
a result (log entry 3). -/

namespace Sys2Proof

/-- The two hardware profiles (R2): `spk` is `SPK`, encoded 0; `tg` is `TG`, encoded 1 (R19). -/
inductive Profile where
  | spk
  | tg
  deriving DecidableEq, Repr

/-- The OPEN parameters of R4. `NCH`, `NSLOT`, `NREG`, `FIXP_SHIFT`, `FREQ_SHIFT` and `DECAY_REF_HZ` are
fixed by the spec and are constants of the model; `TICK_STEP` (R161) and `DECAY[p]` (R153) are computed
from this record in `Machine/Params.lean`. A configuration is fixed for the life of an instance (R211):
`State` carries it, with the proof that it is well formed, in a field that no command writes (log entry 1),
so that every statement about all states quantifies over every well-formed configuration. -/
structure Config where
  /-- `SAMPLE_RATE`, in Hz. -/
  sampleRate : Nat
  /-- `TICK_HZ`, the elementary tick frequency. -/
  tickHz : Nat
  /-- `PROFILE_INIT`. -/
  profileInit : Profile
  /-- `UPDATE_STEP[SPK]`, unsigned 16.16. -/
  updateStepSpk : Nat
  /-- `UPDATE_STEP[TG]`, unsigned 16.16. -/
  updateStepTg : Nat
  /-- `DECAY_PRESET[SPK]`. -/
  decayPresetSpk : Word
  /-- `DECAY_PRESET[TG]`. -/
  decayPresetTg : Word
  /-- `NG_PRESET`, the seed of the noise generator. -/
  ngPreset : Word
  /-- `FB_WHITE`. -/
  fbWhite : Mask
  /-- `FB_PERIODIC`. -/
  fbPeriodic : Mask
  /-- `HULL`, the envelope curve ROM; `HULL_LEN` is its length. -/
  hull : List Word
  /-- `FM`, the frequency-modulation ROM of signed bytes; `FM_LEN` is its length. -/
  fm : List (BitVec 8)
  /-- `VOLTAB_FN`, as the table of its 256 values. -/
  volTabFn : Vector VolTab 256
  /-- `TPM_RESET`. -/
  tpmReset : Word
  deriving DecidableEq, Repr

/-- FREE VALUE (log entry 3). What `NEXT_TICK` holds after a reload whose exact sum does not fit the 32
bits that R18 gives the register: the spec states no reduction there. The arguments are the number of
the tick and the exact sum. It has no body: nothing can be proved of its value. -/
opaque Config.freeNextTick : Nat → Nat → BitVec 32

end Sys2Proof
end

