-- ==== Sys2Proof/Machine/Params.lean ====
section
/-! DEFINITION. The fixed parameters of R4 and the parameters that R4 computes from the configuration. -/

namespace Sys2Proof.Machine

open Sys2Proof

/-- `ONE = 2^FIXP_SHIFT`, one output-sample period in 16.16 (R4, R7). -/
abbrev one : Nat := 65536

/-- `HALF = ONE/2` (R4). -/
abbrev half : Nat := 32768

/-- `DECAY_REF_HZ` (R4). -/
abbrev decayRefHz : Nat := 30000

/-- `TICK_STEP = floor(SAMPLE_RATE * 65536 / TICK_HZ)` (R161). With `TICK_HZ = 0`, which R4 excludes, it
is 0. -/
def tickStep (cfg : Config) : Nat :=
  cfg.sampleRate * one / cfg.tickHz

/-- `UPDATE_STEP[p]` (R4). -/
def updateStep (cfg : Config) : Profile → Nat
  | .spk => cfg.updateStepSpk
  | .tg => cfg.updateStepTg

/-- `FREQ_SHIFT[p]` (R4): 0 for `SPK`, 6 for `TG`. -/
def freqShift : Profile → Nat
  | .spk => 0
  | .tg => 6

/-- `DECAY_PRESET[p]` (R4). -/
def decayPreset (cfg : Config) : Profile → Word
  | .spk => cfg.decayPresetSpk
  | .tg => cfg.decayPresetTg

/-- The loop of R153: `rate` is `SAMPLE_RATE << k`. A rate of at least 1 reaches the reference within 15
doublings, so the bound on the loop is never what ends it. -/
def decayLoop : Nat → Nat → Nat → Nat
  | 0, _, d => d
  | fuel + 1, rate, d => if rate < decayRefHz then decayLoop fuel (2 * rate) (d * d / 65536) else d

/-- `DecayFor(preset, SAMPLE_RATE)` (R153): one squaring per halving of the sample rate below the
reference (conflict C1). -/
def decayFor (preset : Word) (sampleRate : Nat) : Nat :=
  decayLoop 15 sampleRate preset.toNat

/-- `DECAY[p]` (R153). -/
def decay (cfg : Config) (p : Profile) : Nat :=
  decayFor (decayPreset cfg p) cfg.sampleRate

end Sys2Proof.Machine
end

