-- ==== Sys2Proof/Syntax.lean ====
section
/-! DEFINITION. The ten host commands (R61), one constructor per row of `spec/opcode_table.json`, and
the names of the channel registers (R12). -/

namespace Sys2Proof

/-- The 23 registers of one slot, in the index order of R12 and R63. -/
inductive Reg where
  | timeLeft
  | nextCmd
  | baseFreq
  | freqDelta
  | freq
  | volume
  | volumeDelta
  | tempo
  | interNotePause
  | transpose
  | noteLength
  | hullCurve
  | hullOffset
  | hullCounter
  | freqmodTable
  | freqmodCursor
  | freqmodIncr
  | freqmodMult
  | freqmodModulo
  | scratch0
  | scratch1
  | scratch2
  | scratch3
  deriving DecidableEq, Repr

/-- A host command with its operands (R60, R61). Each operand has exactly the width of its field, so
every value of this type is encodable: a bad field value cannot be written down. A word that matches no
row (`RSVD`, R65) is no command; `Decode` rejects it by name. -/
inductive Instr where
  /-- `NOP` (R80). -/
  | nop
  /-- `RESET` (R81). -/
  | reset
  /-- `MODE p` (R82). -/
  | mode (p : Profile)
  /-- `SETVOL v` (R83). -/
  | setvol (v : BitVec 8)
  /-- `WRCH c, r, imm` (R85): host channel index, register index, pattern. -/
  | wrch (c : BitVec 3) (r : BitVec 5) (imm : Word)
  /-- `RDCH c, r` (R86). -/
  | rdch (c : BitVec 3) (r : BitVec 5)
  /-- `CLRCH c` (R87). -/
  | clrch (c : BitVec 3)
  /-- `WRTPM imm` (R88). -/
  | wrtpm (imm : Word)
  /-- `RDTMR` (R89). -/
  | rdtmr
  /-- `PULL n` (R162): the number of frames. -/
  | pull (n : BitVec 24)
  deriving DecidableEq, Repr

end Sys2Proof
end

