-- ==== Sys2Proof/Machine/Operands.lean ====
section
/-! DEFINITION. Operand forms: the resolution of a host channel index and a register index, the
oscillator's frequency input, the noise control value, the volume index. -/

namespace Sys2Proof

/-- The index of a register inside its slot (R12, R63). -/
def Reg.index : Reg → Fin 23
  | .timeLeft => 0
  | .nextCmd => 1
  | .baseFreq => 2
  | .freqDelta => 3
  | .freq => 4
  | .volume => 5
  | .volumeDelta => 6
  | .tempo => 7
  | .interNotePause => 8
  | .transpose => 9
  | .noteLength => 10
  | .hullCurve => 11
  | .hullOffset => 12
  | .hullCounter => 13
  | .freqmodTable => 14
  | .freqmodCursor => 15
  | .freqmodIncr => 16
  | .freqmodMult => 17
  | .freqmodModulo => 18
  | .scratch0 => 19
  | .scratch1 => 20
  | .scratch2 => 21
  | .scratch3 => 22

end Sys2Proof

namespace Sys2Proof.Machine

open Sys2Proof

/-- The register that a 5-bit register index selects (R63); indices 23 to 31 name none (R64). -/
def regOf (r : BitVec 5) : Option Reg :=
  match r.toNat with
  | 0 => some .timeLeft
  | 1 => some .nextCmd
  | 2 => some .baseFreq
  | 3 => some .freqDelta
  | 4 => some .freq
  | 5 => some .volume
  | 6 => some .volumeDelta
  | 7 => some .tempo
  | 8 => some .interNotePause
  | 9 => some .transpose
  | 10 => some .noteLength
  | 11 => some .hullCurve
  | 12 => some .hullOffset
  | 13 => some .hullCounter
  | 14 => some .freqmodTable
  | 15 => some .freqmodCursor
  | 16 => some .freqmodIncr
  | 17 => some .freqmodMult
  | 18 => some .freqmodModulo
  | 19 => some .scratch0
  | 20 => some .scratch1
  | 21 => some .scratch2
  | 22 => some .scratch3
  | _ => none

/-- `slot(c)` (R62): the channel itself for 0 to 3, the sentinel slot 4 for 4 to 7. -/
def slotOf (c : BitVec 3) : Fin 5 :=
  if h : c.toNat < 4 then ⟨c.toNat, by omega⟩ else 4

/-- The slot of channel `c` of the block (R11). -/
def chanSlot (c : Fin 4) : Fin 5 := c.castSucc

/-- The oscillator's frequency input `FREQ >> FREQ_SHIFT[p]` (R133). -/
def oscInput (p : Profile) (freq : Word) : Nat := freq.toNat >>> freqShift p

/-- The feedback mask that the noise control value selects: bit 2, 1 for white (R68, R123). -/
def noiseMask (cfg : Config) (f : Nat) : Mask :=
  if f.testBit 2 then cfg.fbWhite else cfg.fbPeriodic

/-- The frequency input of the noise oscillator: bits 1:0 of the control value `f`; `f2` is the
frequency input of channel 2 (R68, R139). -/
def noiseInput (f f2 : Nat) : Nat :=
  if f % 4 = 3 then 2 * f2 else 32 <<< (f % 4)

/-- The number of attenuation steps, `15 - VOLUME[15:12]` (R69). -/
def volIndex (v : Word) : Fin 16 := ⟨15 - v.toNat / 4096, by omega⟩

end Sys2Proof.Machine
end

