-- ==== Sys2Proof/WellFormed.lean ====
section
/-! DEFINITION. Well-formedness. The operand fields of a command have exactly the widths of R60 in their
types, so no ill-formed command can be written down; what can be ill-formed is a configuration (the
constraints of R4) and a command inside a service call (R90). -/

namespace Sys2Proof

open Sys2Proof.Machine

/-- The commands the host may issue inside a service call (R90). -/
def Instr.allowedInService : Instr → Bool
  | .nop => true
  | .wrch _ _ _ => true
  | .rdch _ _ => true
  | .clrch _ => true
  | .wrtpm _ => true
  | .rdtmr => true
  | .reset => false
  | .mode _ => false
  | .setvol _ => false
  | .pull _ => false

/-- `SAMPLE_RATE`, `TICK_HZ` and `TICK_STEP` are above 0 (R4, R161). -/
def Config.ratesOk (cfg : Config) : Bool :=
  0 < cfg.sampleRate && 0 < cfg.tickHz && 0 < tickStep cfg

/-- `UPDATE_STEP[p]` is above 0 and keeps every period below 2^31 (R4, C8). -/
def Config.updateStepsOk (cfg : Config) : Bool :=
  0 < cfg.updateStepSpk && 0 < cfg.updateStepTg
    && cfg.updateStepSpk * 65535 < 2 ^ 31 && cfg.updateStepTg * 2046 < 2 ^ 31

/-- The two filter presets are distinct (R4). -/
def Config.presetsOk (cfg : Config) : Bool := cfg.decayPresetSpk != cfg.decayPresetTg

/-- The number of one-bits of a feedback mask. -/
def maskOnes (m : Mask) : Nat := (List.range 17).countP m.getLsbD

/-- The two masks are distinct and the periodic one has fewer one-bits (R4). -/
def Config.masksOk (cfg : Config) : Bool :=
  cfg.fbWhite != cfg.fbPeriodic && maskOnes cfg.fbPeriodic < maskOnes cfg.fbWhite

/-- `HULL_LEN <= 98304` (R4). -/
def Config.hullOk (cfg : Config) : Bool := cfg.hull.length ≤ 98304

/-- The entries never rise and the last one is 0. -/
def fallsToZero : List Word → Bool
  | [] => false
  | [x] => x == 0
  | x :: y :: r => y ≤ x && fallsToZero (y :: r)

/-- Properties (a) and (b) of R84 for one volume table: entries never rise, entry 15 is 0. -/
def tableFalls (t : VolTab) : Bool := fallsToZero t.toList

/-- Entry 0 of the table of volume `v`, as a number; 0 past 255. -/
def Config.volTop (cfg : Config) (v : Nat) : Nat :=
  match cfg.volTabFn[v]? with
  | some t => t[0].toNat
  | none => 0

/-- Property (c) of R84: there is a `K` with `VOLTAB_FN(v)[0] = min(65535, floor(K * v))`. If any `K`
does, then so does the largest of the quotients `VOLTAB_FN(w)[0] / w`, so it is enough to try those. -/
def Config.topProportional (cfg : Config) : Bool :=
  (List.range 255).any fun w =>
    (List.range 256).all fun v => cfg.volTop v == min 65535 (cfg.volTop (w + 1) * v / (w + 1))

/-- `VOLTAB_FN` has the three properties of R84. -/
def Config.volTabOk (cfg : Config) : Bool :=
  cfg.volTabFn.toList.all tableFalls && cfg.topProportional

/-- The constraints of R4. An instance whose configuration violates one is refused: the spec gives it no
behaviour (R4, R211). -/
def Config.wellFormed (cfg : Config) : Bool :=
  cfg.ratesOk && cfg.updateStepsOk && cfg.presetsOk && cfg.masksOk && cfg.hullOk && cfg.volTabOk

/-- An instance's configuration (R4, R211): a record with the proof that it meets every constraint, so that
no state of an ill-formed instance can be written down. -/
structure Instance where
  cfg : Config
  wellFormed : cfg.wellFormed = true
  deriving DecidableEq, Repr

end Sys2Proof
end

