-- ==== Sys2Proof/Machine/Example.lean ====
section
/-! DEFINITION. The example configuration `EX1` of `spec/95_test_vectors.md` section 1. It is the
configuration that `State.reset` names (log entry 2, DESIGN CHOICE), and that the tests run with; no
rule of the machine refers to it. -/

namespace Sys2Proof.Machine

open Sys2Proof

/-- `EX_HULL`: curve A (words 0 to 11) and curve B (words 12 to 27). -/
def exHull : List Word :=
  [3, 0xFFFF, 0, 0, 0, 0, 0, 0, 0, 0xFFFF, 0, 0,
   0xEA60, 0xFFFF, 0xFC18, 20, 0, 0, 0, 0, 0x9C40, 0xFFFF, 0xEC78, 5, 0, 0xFFFF, 0, 0]

/-- `EX_FM`: curve Z (byte 0) and curve V (bytes 1 to 8). -/
def exFm : List (BitVec 8) :=
  [0, 0, 50, 100, 50, 0, -50, -100, -50]

/-- Entry `i` of `EX_VOLTAB(v)`: `min(65535, floor((v * 128 / 3) / 1.258925412^i))` for `i` below 15,
and 0 for entry 15. -/
def exVolEntry (v i : Nat) : Word :=
  if i = 15 then 0
  else BitVec.ofNat 16 (min 65535 (v * 128 * 1000000000 ^ i / (3 * 1258925412 ^ i)))

/-- The row `EX_VOLTAB(v)`. -/
def exVolRow (v : Nat) : VolTab :=
  ⟨((List.range 16).map (exVolEntry v)).toArray, by simp⟩

/-- `EX_VOLTAB`, all 256 rows. -/
def exVolTabFn : Vector VolTab 256 :=
  ⟨((List.range 256).map exVolRow).toArray, by simp⟩

/-- `EX1`. -/
def ex1 : Config where
  sampleRate := 44100
  tickHz := 236
  profileInit := .tg
  updateStepSpk := 1211
  updateStepTg := 12918
  decayPresetSpk := 0xFA00
  decayPresetTg := 0xF600
  ngPreset := 0x0F35
  fbWhite := 0x12000
  fbPeriodic := 0x08000
  hull := exHull
  fm := exFm
  volTabFn := exVolTabFn
  tpmReset := 65535

theorem ex1_volTabOk : ex1.volTabOk = true := by decide +kernel

theorem ex1_wellFormed : ex1.wellFormed = true := by
  simp only [Config.wellFormed, ex1_volTabOk, Bool.and_true]
  decide +kernel

/-- The instance configured with `EX1`. -/
def ex1Instance : Instance := ⟨ex1, ex1_wellFormed⟩

end Sys2Proof.Machine
end

