-- ==== Sys2Proof/Machine/State.lean ====
section
/-! DEFINITION. The state of an instance of SQSYN: every piece of state of `spec/10_state.md`, the
configuration the instance was created with, and the model's record of the host's side (log entries 4
to 6). -/

namespace Sys2Proof.Machine

open Sys2Proof

/-- The model faults of R190 and R196: a step that the spec gives no next state. -/
inductive Fault where
  /-- `HullBounds`: raised by the envelope engine when a pair lies at or past the end of the `HULL` ROM
  or the cursor would pass 65535 (R103). Safe: the spec gives no value. -/
  | hullBounds
  /-- `FmBounds`: raised by the frequency-modulation engine when the entry lies at or past the end of the
  `FM` ROM (R112). Safe: the spec gives no value. -/
  | fmBounds
  /-- `VolTabUnset`: raised by the frame step when a channel is to be rendered and no `SETVOL` has been
  executed since reset (R131, R140). Safe: the spec gives no value. -/
  | volTabUnset
  /-- `PeriodRange`: raised by an oscillator whose period is 2^31 or more (R132). No instance's is, since
  its configuration is well formed (R190; log entry 9). Safe. -/
  | periodRange
  /-- `ClockStuck`: raised by `PULL` when `TICK_STEP` is 0 (R161, R162). No instance's is, since its
  configuration is well formed (R190; log entry 10). Safe. -/
  | clockStuck
  deriving DecidableEq, Repr

/-- What the model gives no meaning. -/
inductive Refusal where
  /-- An instruction of the opcode table without a meaning. No arm answers it. Safe. -/
  | notModelled (mnemonic : String)
  /-- Raised by a service call whose answer holds `PULL`, `RESET`, `MODE` or `SETVOL`: the lock keeps
  them out of a `PULL` body and the host cannot produce them (R90, U13: `refuse`). Safe. -/
  | serviceViolation
  /-- Raised by the creation of an instance whose configuration violates a constraint of R4: the spec
  gives it no behaviour (R4, R211, U7 to U9: `refuse`). Safe. -/
  | illFormedInstance
  deriving DecidableEq, Repr

/-- The two service events (R190): `SEQ_REQ(c)` and `IDLE`. -/
inductive Event where
  | seqReq (c : Fin 4)
  | idle
  deriving DecidableEq, Repr

/-- An event as a run is observed by it (R214): which, and in which tick, numbered from 0 since reset
(R163). -/
structure EventRec where
  tick : Nat
  event : Event
  deriving DecidableEq, Repr

/-- What a command returns to the host (R90): 16 bits for `RDCH`, 32 bits for `RDTMR`. -/
inductive Result where
  | half (v : Word)
  | word (v : BitVec 32)
  deriving DecidableEq, Repr

/-- One stereo frame of two signed 16-bit samples (R40, R44). -/
structure Frame where
  left : Word
  right : Word
  deriving DecidableEq, Repr

/-- The state of an instance. -/
structure State where
  /-- The instance's configuration record (R4), well formed. No command writes it (R211); log entry 1. -/
  inst : Instance
  /-- `CH[s][r]`: 5 slots of 23 registers of 16 bits (R11, R12). Slot 4 is the sentinel. -/
  ch : Vector (Vector Word 23) 5
  /-- `RNG`, the noise shift register (R15). -/
  rng : Word
  /-- `PHASE[c]`, the oscillator output flags (R14). -/
  phase : Vector Bool 4
  /-- `TIMER_COUNT[c]`, signed 32-bit, 16.16 (R16). -/
  timerCount : Vector (BitVec 32) 4
  /-- `LEVEL`, signed 16-bit (R17). -/
  level : Word
  /-- `NEXT_TICK`, unsigned 32-bit, 16.16 (R18). -/
  nextTick : BitVec 32
  /-- `PROFILE` (R19). -/
  profile : Profile
  /-- `VOLTAB`; `none` is the spec's own "unset" (R20). -/
  volTab : Option VolTab
  /-- `MUSIC_TIMER` (R21). -/
  musicTimer : BitVec 32
  /-- `MUSIC_CTR` (R21). -/
  musicCtr : Word
  /-- `TICKS_PER_MUSIC_TIMER` (R21). -/
  ticksPerMusicTimer : Word
  /-- `OUT`, every frame emitted since reset, oldest first (R25, R44). -/
  out : List Frame
  /-- The model's: the command words the host has yet to present, in order (R90; log entry 4). -/
  port : List CmdWord
  /-- The model's: the host's answers to the service events to come, one list of command words an event
  (R181; log entry 5). -/
  answers : List (List CmdWord)
  /-- The model's: the results returned since reset, oldest first (R214; log entry 6). -/
  results : List Result
  /-- The model's: the events raised since reset, oldest first (R214; log entry 6). -/
  events : List EventRec
  /-- The model's: the number of ticks executed since reset (R163; log entry 6). -/
  ticks : Nat
  deriving DecidableEq, Repr

/-- The configuration record of the instance (R4). -/
abbrev State.cfg (s : State) : Config := s.inst.cfg

/-- The reset state of an instance (R26, R210), with nothing yet from the host. -/
def State.resetOf (inst : Instance) : State where
  inst := inst
  ch := Vector.replicate 5 (Vector.replicate 23 0)
  rng := inst.cfg.ngPreset
  phase := Vector.replicate 4 false
  timerCount := Vector.replicate 4 0
  level := 0
  nextTick := 0
  profile := inst.cfg.profileInit
  volTab := none
  musicTimer := 0
  musicCtr := 0
  ticksPerMusicTimer := inst.cfg.tpmReset
  out := []
  port := []
  answers := []
  results := []
  events := []
  ticks := 0

/-- The machine right after reset: the reset state (R26) of the instance configured with `EX1`
(log entry 2). -/
def State.reset : State := State.resetOf ex1Instance

end Sys2Proof.Machine
end

