-- ==== Sys2Proof/Machine/Ops.lean ====
section
/-! DEFINITION. The shared operations: outcomes in sequence, the arithmetic of R5, the storage
primitives of R6, the command port, and taking a service event. -/

namespace Sys2Proof.Machine

open Sys2Proof

/-- The outcome of an operation that yields an `α`. -/
abbrev Res (α : Type) := Host.Outcome α Fault Refusal

/-- Do `f` after `o`; a fault or a refusal of `o` ends the sequence (R196: no next state). -/
@[inline] def andThen {α β : Type} (o : Res α) (f : α → Res β) : Res β :=
  match o with
  | .next a => f a
  | .fault r => .fault r
  | .refused r => .refused r

/-! ## Arithmetic (R5) -/

/-- `clamp16(i)`. -/
def clamp16 (i : Int) : Int := max (-32768) (min 32767 i)

/-- `u16(i)`: the integer modulo 65536. -/
def u16 (i : Int) : Word := BitVec.ofInt 16 i

/-! ## The channel register file (R41) -/

/-- `CH[sl].r`. -/
def State.reg (s : State) (sl : Fin 5) (r : Reg) : Word := (s.ch[sl])[r.index]

/-- `CH[sl].r <- v`. -/
def State.setReg (s : State) (sl : Fin 5) (r : Reg) (v : Word) : State :=
  { s with ch := s.ch.set sl (s.ch[sl].set r.index v) }

/-- Every register of one slot set to 0 (R87). -/
def State.clearSlot (s : State) (sl : Fin 5) : State :=
  { s with ch := s.ch.set sl (Vector.replicate 23 0) }

/-- The read of `CH[slot][r]` by a register index: 0 where the index names no register (R64, R86). -/
def State.readIndexed (s : State) (sl : Fin 5) (r : BitVec 5) : Word :=
  match regOf r with
  | some q => s.reg sl q
  | none => 0

/-- The write of `CH[slot][r]` by a register index: nothing where the index names no register (R64,
R85). -/
def State.writeIndexed (s : State) (sl : Fin 5) (r : BitVec 5) (v : Word) : State :=
  match regOf r with
  | some q => s.setReg sl q v
  | none => s

/-! ## The ROMs (R42, R43) and the output stream (R44) -/

/-- `HullRead(i)`. -/
def hullRead (s : State) (i : Nat) : Res Word :=
  match s.cfg.hull[i]? with
  | some w => .next w
  | none => .fault .hullBounds

/-- `FmRead(i)`, the signed byte as an integer. -/
def fmRead (s : State) (i : Nat) : Res Int :=
  match s.cfg.fm[i]? with
  | some b => .next b.toInt
  | none => .fault .fmBounds

/-- `Emit(l, r)`. -/
def State.emit (s : State) (l r : Word) : State :=
  { s with out := s.out ++ [⟨l, r⟩] }

/-! ## Single global registers -/

/-- `NEXT_TICK <- v` (R18). -/
def State.setNextTick (s : State) (v : BitVec 32) : State := { s with nextTick := v }

/-- `LEVEL <- v` (R17). -/
def State.setLevel (s : State) (v : Word) : State := { s with level := v }

/-! ## The host's side: results, the command port, service events -/

/-- Return a result to the host (R90). -/
def State.returns (s : State) (r : Result) : State :=
  { s with results := s.results ++ [r] }

/-- The next command word the host presents, and the state in which it executes; none while the host
presents nothing (R90; log entry 4). -/
def State.fetch (s : State) : Option (CmdWord × State) :=
  match s.port with
  | [] => none
  | w :: ws => some (w, { s with port := ws })

/-- The host presents `w` next, before the words it already has in hand (log entry 4). -/
def State.present (s : State) (w : CmdWord) : State :=
  { s with port := w :: s.port }

/-- Entry of a service call: the event is raised and the host's next answer is taken. Nothing is saved
and no other state changes by the entry itself; there is no mode and no mask (R191, R192). A host with
no answer left does nothing (R181 (c)). -/
def State.takeEvent (s : State) (e : Event) : List CmdWord × State :=
  let s' := { s with events := s.events ++ [⟨s.ticks, e⟩] }
  match s.answers with
  | [] => ([], s')
  | a :: as => (a, { s' with answers := as })

end Sys2Proof.Machine
end

