-- ==== Sys2Proof/Machine/Filter.lean ====
section
/-! DEFINITION. The low-pass filter (R150, R151). -/

namespace Sys2Proof.Machine

open Sys2Proof

/-- `(LEVEL * D + ACC * (65536 - D)) >>a 16`, exact and rounded toward minus infinity (R151). -/
def filtered (d : Nat) (level acc : Int) : Int :=
  (level * d + acc * (65536 - d)) / 65536

/-- `LpfStep` (R151), with the coefficient of the current profile (R154). -/
def lpfStep (acc : Int) (s : State) : State :=
  s.setLevel (BitVec.ofInt 16 (filtered (decay s.cfg s.profile) s.level.toInt acc))

end Sys2Proof.Machine
end

