-- ==== Sys2Proof/Machine/Flags.lean ====
section
/-! DEFINITION. The flags: the four phase bits `PHASE[c]` (R14). There are no others. -/

namespace Sys2Proof.Machine

open Sys2Proof

/-- `PHASE[c] <- PHASE[c] xor 1`. -/
def State.togglePhase (s : State) (c : Fin 4) : State :=
  { s with phase := s.phase.set c (!s.phase[c]) }

/-- Both pieces of state of oscillator `i` set to those of oscillator `j` (R135). -/
def State.copyOsc (s : State) (i j : Fin 4) : State :=
  { s with
    timerCount := s.timerCount.set i s.timerCount[j]
    phase := s.phase.set i s.phase[j] }

/-- Every phase bit and every countdown cleared (R82). -/
def State.clearOsc (s : State) : State :=
  { s with
    phase := Vector.replicate 4 false
    timerCount := Vector.replicate 4 0 }

/-- `TIMER_COUNT[c]` as the signed integer it stands for (R16). -/
def State.timer (s : State) (c : Fin 4) : Int := (s.timerCount[c]).toInt

/-- `TIMER_COUNT[c] <- t`. -/
def State.setTimer (s : State) (c : Fin 4) (t : Int) : State :=
  { s with timerCount := s.timerCount.set c (BitVec.ofInt 32 t) }

end Sys2Proof.Machine
end

