-- ==== Sys2Proof/Machine/Noise.lean ====
section
/-! DEFINITION. The noise generator (R120 to R122). -/

namespace Sys2Proof.Machine

open Sys2Proof

/-- The register after one edge (R121): with bit 0 set the 17-bit mask is applied before the shift; bits
16 to 1 are kept. -/
def lfsrNext (fb : Mask) (rng : Word) : Word :=
  let t : Mask := rng.zeroExtend 17
  (if rng.getLsbD 0 then t ^^^ fb else t).extractLsb' 1 16

/-- `LfsrEdge(fb, c)` (R121): the phase toggles iff the old bit 0 was 1. -/
def lfsrEdge (fb : Mask) (c : Fin 4) (s : State) : State :=
  let s' := if s.rng.getLsbD 0 then s.togglePhase c else s
  { s' with rng := lfsrNext fb s.rng }

end Sys2Proof.Machine
end

