-- ==== Sys2Proof/Machine/Oscillator.lean ====
section
/-! DEFINITION. The square-wave oscillator (R130 to R133). `ACC` is no state: it is passed along within
one frame (R24). -/

namespace Sys2Proof.Machine

open Sys2Proof

/-- `Sounding(c)` (R130). -/
def sounding (s : State) (c : Fin 4) : Bool :=
  s.reg (chanSlot c) .volume != 0 && s.reg (chanSlot c) .timeLeft != 0

/-- `VOLTAB[i]`, or `VolTabUnset` (R131). -/
def volTabRead (s : State) (i : Fin 16) : Res Word :=
  match s.volTab with
  | some t => .next t[i]
  | none => .fault .volTabUnset

/-- `VolEntry(c)` of the `TG` profile (R131). -/
def volEntry (s : State) (c : Fin 4) : Res Word :=
  volTabRead s (volIndex (s.reg (chanSlot c) .volume))

/-- The period of a frequency input (R132): `UPDATE_STEP[PROFILE] * f`, or `UPDATE_STEP[PROFILE]` where
that is 0. -/
def oscPeriod (s : State) (f : Nat) : Nat :=
  if updateStep s.cfg s.profile * f = 0 then updateStep s.cfg s.profile
  else updateStep s.cfg s.profile * f

/-- One edge of oscillator `c` (R132): a plain toggle, or the noise generator's edge (R122). -/
def oscEdge (fb : Option Mask) (c : Fin 4) (s : State) : State :=
  match fb with
  | none => s.togglePhase c
  | some m => lfsrEdge m c s

/-- The `while TIMER_COUNT[c] <= 0` loop of R132 on the countdown `t` and the high-phase duration `d`.
Each edge raises the countdown by the period, which is at least 1 (`oscPeriod_pos`), so the bound that
`oscSpan` gives, the number of units to go, is never what ends the loop (`oscEdges_pos`). -/
def oscEdges (fb : Option Mask) (c : Fin 4) (period : Nat) : Nat → Int → Int → State → Int × Int × State
  | 0, t, d, s => (t, d, s)
  | fuel + 1, t, d, s =>
    if t ≤ 0 then
      let s' := oscEdge fb c s
      oscEdges fb c period fuel (t + period) (if s'.phase[c] then d + period else d) s'
    else (t, d, s)

/-- The part of R132 before the mix: the frame's high-phase duration `d` and the state with the
oscillator moved to the end of the frame. -/
def oscSpan (c : Fin 4) (period : Nat) (fb : Option Mask) (s : State) : Int × State :=
  let d0 : Int := if s.phase[c] then s.timer c else 0
  let t0 : Int := s.timer c - one
  let r := oscEdges fb c period (1 - t0).toNat t0 d0 s
  (if r.2.2.phase[c] then r.2.1 - r.1 else r.2.1, r.2.2.setTimer c r.1)

/-- The contribution `((d - HALF) * vt) >>a 16` (R132). -/
def contribution (d : Int) (vt : Word) : Int := (d - half) * vt.toNat / 65536

/-- `Osc(c, f, vt, fb)` (R132), on the state and `ACC`. -/
def osc (c : Fin 4) (f : Nat) (vt : Word) (fb : Option Mask) (x : State × Int) : Res (State × Int) :=
  if 2 ^ 31 ≤ oscPeriod x.1 f then .fault .periodRange
  else
    let r := oscSpan c (oscPeriod x.1 f) fb x.1
    .next (r.2, clamp16 (x.2 + contribution r.1 vt))

end Sys2Proof.Machine
end

