-- ==== Sys2Proof/Machine/Mix.lean ====
section
/-! DEFINITION. Phase synchronisation, the two mixes and the frame step (R135 to R140). -/

namespace Sys2Proof.Machine

open Sys2Proof

/-- The frequency input of channel `c` in the `TG` profile (R133). -/
def tgInput (s : State) (c : Fin 4) : Nat := oscInput .tg (s.reg (chanSlot c) .freq)

/-- One pair of `PhaseSync` (R135): channel `i` takes the oscillator state of channel `j`. -/
def syncPair (i j : Fin 4) (s : State) : State :=
  if sounding s i && sounding s j && tgInput s i == tgInput s j then s.copyOsc i j else s

/-- `PhaseSync` (R135). -/
def phaseSync (s : State) : State := syncPair 2 1 (syncPair 2 0 (syncPair 1 0 s))

/-- Inactive drain (R137). -/
def drain (c : Fin 4) (s : State) : State := s.setTimer c (max 0 (s.timer c - one))

/-- The noise control value `CH[3].FREQ >> FREQ_SHIFT[TG]` (R68). -/
def noiseControl (s : State) : Nat := tgInput s 3

/-- `NoiseOsc` (R139). -/
def noiseOsc (x : State × Int) : Res (State × Int) :=
  andThen (volEntry x.1 3) fun vt =>
  osc 3 (noiseInput (noiseControl x.1) (tgInput x.1 2)) vt (some (noiseMask x.1.cfg (noiseControl x.1))) x

/-- A melodic channel of the `TG` profile (R138). -/
def melodicOsc (c : Fin 4) (x : State × Int) : Res (State × Int) :=
  andThen (volEntry x.1 c) fun vt => osc c (tgInput x.1 c) vt none x

/-- One turn of the channel loop of `TgMix` (R138). -/
def tgChannel (c : Fin 4) (x : State × Int) : Res (State × Int) :=
  if sounding x.1 c then
    if c = 3 then noiseOsc x else melodicOsc c x
  else .next (drain c x.1, x.2)

/-- `TgMix` (R138), from `ACC = 0`. -/
def tgMix (s : State) : Res (State × Int) :=
  andThen (tgChannel 0 (phaseSync s, 0)) fun x =>
  andThen (tgChannel 1 x) fun x =>
  andThen (tgChannel 2 x) fun x =>
  tgChannel 3 x

/-- The winning channel of the speaker: the smallest sounding one (R140). -/
def winner (s : State) : Option (Fin 4) :=
  if sounding s 0 then some 0
  else if sounding s 1 then some 1
  else if sounding s 2 then some 2
  else if sounding s 3 then some 3
  else none

/-- `SpkMix` (R140), from `ACC = 0`: the winner's frequency on oscillator 0, at `VOLTAB[0]`. -/
def spkMix (s : State) : Res (State × Int) :=
  match winner s with
  | none => .next (s, 0)
  | some w =>
    andThen (volTabRead s 0) fun vt =>
    osc 0 (oscInput .spk (s.reg (chanSlot w) .freq)) vt none (s, 0)

/-- The mix of the current profile (R136). -/
def mix (s : State) : Res (State × Int) :=
  match s.profile with
  | .spk => spkMix s
  | .tg => tgMix s

/-- The filter and the emission of the frame (R136, R150). -/
def finishFrame (x : State × Int) : State :=
  let s := lpfStep x.2 x.1
  s.emit s.level s.level

/-- `FrameStep` (R136). -/
def frameStep (s : State) : Res State :=
  andThen (mix s) fun x => .next (finishFrame x)

end Sys2Proof.Machine
end

