-- ==== Sys2Proof/Machine/Envelope.lean ====
section
/-! DEFINITION. The envelope (hull) engine (R100 to R105), stepped by the tick for each active channel. -/

namespace Sys2Proof.Machine

open Sys2Proof

/-- Volume ramp (R101). -/
def volumeRamp (sl : Fin 5) (s : State) : State :=
  s.setReg sl .volume (s.reg sl .volume + s.reg sl .volumeDelta)

/-- Note-off (R102). -/
def noteOff (sl : Fin 5) (s : State) : State :=
  if s.reg sl .noteLength = 0 then s
  else
    let s' := s.setReg sl .noteLength (s.reg sl .noteLength - 1)
    if s'.reg sl .noteLength = 0 then
      (s'.setReg sl .hullOffset 16).setReg sl .hullCounter 1
    else s'

/-- The word index of the pair under the cursor, `HULL_CURVE + (HULL_OFFSET >> 1)` (R46, R104). -/
def hullIndex (sl : Fin 5) (s : State) : Nat :=
  (s.reg sl .hullCurve).toNat + (s.reg sl .hullOffset).toNat / 2

/-- A hold pair of level `a` (R103): the level is set, and level 0 clears the ramp too. -/
def holdPair (sl : Fin 5) (a : Word) (s : State) : State :=
  let s' := s.setReg sl .volume a
  if a = 0 then s'.setReg sl .volumeDelta 0 else s'

/-- A ramp pair of delta `a` and duration `b` (R103). -/
def rampPair (sl : Fin 5) (a b : Word) (s : State) : State :=
  (s.setReg sl .volumeDelta a).setReg sl .hullCounter b

/-- The cursor moved on by the stride of 4 bytes (R104), or `HullBounds` where it would pass 65535. -/
def advanceHull (sl : Fin 5) (s : State) : Res State :=
  if 65535 < (s.reg sl .hullOffset).toNat + 4 then .fault .hullBounds
  else .next (s.setReg sl .hullOffset (s.reg sl .hullOffset + 4))

/-- The loop of `HullEval(c)` (R103). The cursor rises by 4 in each iteration, so at most 16384 of them
happen before the cursor would pass 65535 (R105): a bound of 16384 is never what ends the loop. -/
def hullLoop (sl : Fin 5) : Nat → State → Res State
  | 0, _ => .fault .hullBounds
  | fuel + 1, s =>
    andThen (hullRead s (hullIndex sl s)) fun a =>
    andThen (hullRead s (hullIndex sl s + 1)) fun b =>
    andThen (advanceHull sl s) fun s' =>
    if b = 0xFFFF then hullLoop sl fuel (holdPair sl a s')
    else .next (rampPair sl a b s')

/-- `HullEval(c)` (R103). -/
def hullEval (sl : Fin 5) (s : State) : Res State := hullLoop sl 16384 s

/-- Hull step (R103): the counter's 1 to 0 transition evaluates; a parked engine does nothing (R100). -/
def hullStep (sl : Fin 5) (s : State) : Res State :=
  if s.reg sl .hullCounter = 0 then .next s
  else
    let s' := s.setReg sl .hullCounter (s.reg sl .hullCounter - 1)
    if s'.reg sl .hullCounter = 0 then hullEval sl s' else .next s'

end Sys2Proof.Machine
end

