-- ==== Sys2Proof/Machine/FreqMod.lean ====
section
/-! DEFINITION. The frequency-modulation engine and portamento (R110 to R112). -/

namespace Sys2Proof.Machine

open Sys2Proof

/-- Base-frequency ramp (R110). -/
def baseRamp (sl : Fin 5) (s : State) : State :=
  s.setReg sl .baseFreq (s.reg sl .baseFreq + s.reg sl .freqDelta)

/-- The cursor after one advance (R111): the true remainder, modulo 2^16 where the modulo is 0. -/
def nextCursor (cursor incr modulo : Word) : Word :=
  if modulo = 0 then BitVec.ofNat 16 (cursor.toNat + incr.toNat)
  else BitVec.ofNat 16 ((cursor.toNat + incr.toNat) % modulo.toNat)

/-- Cursor advance (R111). -/
def cursorAdvance (sl : Fin 5) (s : State) : State :=
  s.setReg sl .freqmodCursor
    (nextCursor (s.reg sl .freqmodCursor) (s.reg sl .freqmodIncr) (s.reg sl .freqmodModulo))

/-- The byte index of the table entry, `FREQMOD_TABLE + (FREQMOD_CURSOR >> 4)` (R112). -/
def fmIndex (sl : Fin 5) (s : State) : Nat :=
  (s.reg sl .freqmodTable).toNat + (s.reg sl .freqmodCursor).toNat / 16

/-- `u16(BASE_FREQ + tdiv(m * FREQMOD_MULT, 256))` (R112): the multiplier unsigned, the division toward
zero. -/
def modulated (base : Word) (m : Int) (mult : Word) : Word :=
  u16 (base.toNat + Int.tdiv (m * mult.toNat) 256)

/-- Effective frequency (R112). -/
def effectiveFreq (sl : Fin 5) (s : State) : Res State :=
  andThen (fmRead s (fmIndex sl s)) fun m =>
  .next (s.setReg sl .freq (modulated (s.reg sl .baseFreq) m (s.reg sl .freqmodMult)))

end Sys2Proof.Machine
end

