-- ==== Sys2Proof/Decode.lean ====
section
/-! DEFINITION. The decoder of a 32-bit command word (R60 to R65), and after it the encoder. -/

namespace Sys2Proof

/-- A row of the opcode map (R61): a word `W` is the command iff `(W and mask) = pattern`. -/
structure OpRow where
  mnemonic : String
  pattern : CmdWord
  mask : CmdWord
  deriving DecidableEq, Repr

/-- The opcode map (R61), in the order of its rows. -/
def opRows : List OpRow :=
  [⟨"NOP", 0x00000000, 0xFFFFFFFF⟩,
   ⟨"RESET", 0x01000000, 0xFFFFFFFF⟩,
   ⟨"MODE", 0x02000000, 0xFFFFFFFE⟩,
   ⟨"SETVOL", 0x03000000, 0xFFFFFF00⟩,
   ⟨"WRCH", 0x04000000, 0xFF000000⟩,
   ⟨"RDCH", 0x05000000, 0xFF00FFFF⟩,
   ⟨"CLRCH", 0x06000000, 0xFF1FFFFF⟩,
   ⟨"WRTPM", 0x07000000, 0xFFFF0000⟩,
   ⟨"RDTMR", 0x08000000, 0xFFFFFFFF⟩,
   ⟨"PULL", 0x09000000, 0xFF000000⟩]

/-- Whether a word matches a row (R61). -/
def OpRow.hits (row : OpRow) (w : CmdWord) : Bool := w &&& row.mask == row.pattern

/-- The row of each command (R61). -/
def Instr.row : Instr → OpRow
  | .nop => ⟨"NOP", 0x00000000, 0xFFFFFFFF⟩
  | .reset => ⟨"RESET", 0x01000000, 0xFFFFFFFF⟩
  | .mode _ => ⟨"MODE", 0x02000000, 0xFFFFFFFE⟩
  | .setvol _ => ⟨"SETVOL", 0x03000000, 0xFFFFFF00⟩
  | .wrch _ _ _ => ⟨"WRCH", 0x04000000, 0xFF000000⟩
  | .rdch _ _ => ⟨"RDCH", 0x05000000, 0xFF00FFFF⟩
  | .clrch _ => ⟨"CLRCH", 0x06000000, 0xFF1FFFFF⟩
  | .wrtpm _ => ⟨"WRTPM", 0x07000000, 0xFFFF0000⟩
  | .rdtmr => ⟨"RDTMR", 0x08000000, 0xFFFFFFFF⟩
  | .pull _ => ⟨"PULL", 0x09000000, 0xFF000000⟩

/-- Why a word is a reserved encoding `RSVD` (R65). -/
inductive Reserved where
  /-- `OP` is 0x0A to 0xFF. -/
  | undefinedOp (op : BitVec 8)
  /-- `OP` is defined and a reserved bit is not zero. -/
  | reservedBit (op : BitVec 8)
  deriving DecidableEq, Repr

/-- `OP = W[31:24]` (R60). -/
def opField (w : CmdWord) : BitVec 8 := w.extractLsb' 24 8

/-- `c = W[23:21]` (R60). -/
def cField (w : CmdWord) : BitVec 3 := w.extractLsb' 21 3

/-- `r = W[20:16]` (R60). -/
def rField (w : CmdWord) : BitVec 5 := w.extractLsb' 16 5

/-- `imm = W[15:0]` (R60). -/
def immField (w : CmdWord) : Word := w.extractLsb' 0 16

/-- `v = W[7:0]` (R60). -/
def vField (w : CmdWord) : BitVec 8 := w.extractLsb' 0 8

/-- `n = W[23:0]` (R60). -/
def nField (w : CmdWord) : BitVec 24 := w.extractLsb' 0 24

/-- `p = W[0]` (R60): 0 is `SPK`, 1 is `TG` (R19). -/
def pField (w : CmdWord) : Profile := if w.getLsbD 0 then .tg else .spk

/-- The decoder: the command whose row the word matches, or why the word is reserved. It is total: every
32-bit word is exactly one of the ten commands or `RSVD` (R65). -/
def decode (w : CmdWord) : Except Reserved Instr :=
  if w &&& 0xFFFFFFFF = 0x00000000 then .ok .nop
  else if w &&& 0xFFFFFFFF = 0x01000000 then .ok .reset
  else if w &&& 0xFFFFFFFE = 0x02000000 then .ok (.mode (pField w))
  else if w &&& 0xFFFFFF00 = 0x03000000 then .ok (.setvol (vField w))
  else if w &&& 0xFF000000 = 0x04000000 then .ok (.wrch (cField w) (rField w) (immField w))
  else if w &&& 0xFF00FFFF = 0x05000000 then .ok (.rdch (cField w) (rField w))
  else if w &&& 0xFF1FFFFF = 0x06000000 then .ok (.clrch (cField w))
  else if w &&& 0xFFFF0000 = 0x07000000 then .ok (.wrtpm (immField w))
  else if w &&& 0xFFFFFFFF = 0x08000000 then .ok .rdtmr
  else if w &&& 0xFF000000 = 0x09000000 then .ok (.pull (nField w))
  else if (opField w).toNat < 10 then .error (.reservedBit (opField w))
  else .error (.undefinedOp (opField w))

/-- The instruction the decoder reads from an opcode-table row's bits. A command is one 32-bit word, so
the bits above `nbits` are the high bits of that word. -/
def decodeTableWord (nbits w : Nat) : Option Instr :=
  match decode (BitVec.ofNat 32 (w % 2 ^ nbits)) with
  | .ok i => some i
  | .error _ => none

/-- Bit 0 of a `MODE` word (R60). -/
def profileBit : Profile → BitVec 1
  | .spk => 0
  | .tg => 1

/-- The word of a command, from the formats of R60: `OP` on top, then the fields of its format, with
the bits the format does not use at zero. -/
def encode : Instr → CmdWord
  | .nop => 0x00#8 ++ 0#24
  | .reset => 0x01#8 ++ 0#24
  | .mode p => 0x02#8 ++ 0#23 ++ profileBit p
  | .setvol v => 0x03#8 ++ 0#16 ++ v
  | .wrch c r imm => 0x04#8 ++ c ++ r ++ imm
  | .rdch c r => 0x05#8 ++ c ++ r ++ 0#16
  | .clrch c => 0x06#8 ++ c ++ 0#21
  | .wrtpm imm => 0x07#8 ++ 0#8 ++ imm
  | .rdtmr => 0x08#8 ++ 0#24
  | .pull n => 0x09#8 ++ n

end Sys2Proof
end

