-- ==== Sys2Proof/Machine/Control.lean ====
section
/-! DEFINITION. `NOP`, the reserved encoding, and the instance control commands `RESET`, `MODE` and
`SETVOL` (R80 to R83). -/

namespace Sys2Proof.Machine

open Sys2Proof

/-- `NOP` (R80): nothing. -/
def execNop (s : State) : Res State := .next s

/-- A reserved encoding executes as `NOP` (R65). -/
def execReserved (s : State) : Res State := execNop s

/-- The creation of an instance (R210), the other way into the reset state: the instance starts in it if its
configuration meets every constraint of R4, and is refused if it violates one (R4, R211). -/
def State.create (cfg : Config) : Res State :=
  if h : cfg.wellFormed = true then .next (State.resetOf ⟨cfg, h⟩) else .refused .illFormedInstance

/-- `RESET` (R81): the power-on state of the same instance (R26). What the host has in hand, the words it
has yet to present and its answers to come, is the host's and stays; the record of the run starts again
with the frame numbering (log entry 7). -/
def execReset (s : State) : Res State :=
  .next { State.resetOf s.inst with port := s.port, answers := s.answers }

/-- `MODE p` (R82). -/
def execMode (p : Profile) (s : State) : Res State :=
  .next { s.clearOsc with profile := p }

/-- `SETVOL v` (R83): the table replaced as a whole. -/
def execSetvol (v : BitVec 8) (s : State) : Res State :=
  .next { s with volTab := some s.cfg.volTabFn[v.toNat] }

end Sys2Proof.Machine
end

