-- ==== Sys2Proof/Machine/MusicTimer.lean ====
section
/-! DEFINITION. The music timer: `WRTPM` (R88), `RDTMR` (R89) and its step in a tick (R168). -/

namespace Sys2Proof.Machine

open Sys2Proof

/-- `WRTPM imm` (R88). -/
def execWrtpm (imm : Word) (s : State) : Res State :=
  .next { s with ticksPerMusicTimer := imm }

/-- `RDTMR` (R89). -/
def execRdtmr (s : State) : Res State :=
  .next (s.returns (.word s.musicTimer))

/-- `MusicTimerStep` (R168). -/
def musicTimerStep (s : State) : State :=
  let ctr := s.musicCtr + 1
  if s.ticksPerMusicTimer ≤ ctr then
    { s with musicCtr := 0, musicTimer := s.musicTimer + 1 }
  else
    { s with musicCtr := ctr }

end Sys2Proof.Machine
end

