-- ==== Sys2Proof/Machine/Registers.lean ====
section
/-! DEFINITION. Channel register access: `WRCH`, `RDCH`, `CLRCH` (R85 to R87). -/

namespace Sys2Proof.Machine

open Sys2Proof

/-- `WRCH c, r, imm` (R85). -/
def execWrch (c : BitVec 3) (r : BitVec 5) (imm : Word) (s : State) : Res State :=
  .next (s.writeIndexed (slotOf c) r imm)

/-- `RDCH c, r` (R86). -/
def execRdch (c : BitVec 3) (r : BitVec 5) (s : State) : Res State :=
  .next (s.returns (.half (s.readIndexed (slotOf c) r)))

/-- `CLRCH c` (R87). -/
def execClrch (c : BitVec 3) (s : State) : Res State :=
  .next (s.clearSlot (slotOf c))

end Sys2Proof.Machine
end

