-- ==== Sys2Proof/Machine/Service.lean ====
section
/-! DEFINITION. A service call (R191, R192): the host issues the commands of one answer, each executed as
its own rule says, and returns; there is nothing to restore. -/

namespace Sys2Proof.Machine

open Sys2Proof

/-- One command inside a service call. The six commands that R90 allows have their own meanings; the
four control-path commands are a violation of the protocol (U13). -/
def serviceCommand (i : Instr) (s : State) : Res State :=
  match i with
  | .nop => execNop s
  | .wrch c r imm => execWrch c r imm s
  | .rdch c r => execRdch c r s
  | .clrch c => execClrch c s
  | .wrtpm imm => execWrtpm imm s
  | .rdtmr => execRdtmr s
  | .reset => .refused .serviceViolation
  | .mode _ => .refused .serviceViolation
  | .setvol _ => .refused .serviceViolation
  | .pull _ => .refused .serviceViolation

/-- One command word inside a service call; a reserved encoding acts as `NOP` there as anywhere (R65,
log entry 8). -/
def serviceWord (w : CmdWord) (s : State) : Res State :=
  match decode w with
  | .ok i => serviceCommand i s
  | .error _ => execReserved s

/-- The words of one answer, in order, until the host returns. -/
def serviceWords : List CmdWord → State → Res State
  | [], s => .next s
  | w :: ws, s => andThen (serviceWord w s) (serviceWords ws)

/-- `event e` (R166, R167): raise it, serve it, return to the tick. -/
def serve (e : Event) (s : State) : Res State :=
  serviceWords (s.takeEvent e).1 (s.takeEvent e).2

end Sys2Proof.Machine
end

