-- ==== Sys2Proof/Machine/Tick.lean ====
section
/-! DEFINITION. The tick step (R164 to R168). -/

namespace Sys2Proof.Machine

open Sys2Proof

/-- A channel is active iff its `TIME_LEFT` is not 0 (R164). -/
def active (s : State) (c : Fin 4) : Bool := s.reg (chanSlot c) .timeLeft != 0

/-- Whether any channel is active. -/
def anyActive (s : State) : Bool := active s 0 || active s 1 || active s 2 || active s 3

/-- Duration decrement and sequencer request (R166). -/
def durationStep (c : Fin 4) (s : State) : Res State :=
  let s' := s.setReg (chanSlot c) .timeLeft (s.reg (chanSlot c) .timeLeft - 1)
  if s'.reg (chanSlot c) .timeLeft = 0 then serve (.seqReq c) s' else .next s'

/-- `ChTick(c)`: the seven operations of R165, in their order. -/
def chTick (c : Fin 4) (s : State) : Res State :=
  andThen (effectiveFreq (chanSlot c)
    (cursorAdvance (chanSlot c) (baseRamp (chanSlot c) (volumeRamp (chanSlot c) s)))) fun s =>
  andThen (hullStep (chanSlot c) (noteOff (chanSlot c) s)) fun s =>
  durationStep c s

/-- One turn of the channel loop of `Tick` (R164): activity is tested when the channel's turn comes. -/
def tickChannel (c : Fin 4) (s : State) : Res State :=
  if active s c then chTick c s else .next s

/-- The channel loop of `Tick` (R164). -/
def tickChannels (s : State) : Res State :=
  andThen (tickChannel 0 s) fun s =>
  andThen (tickChannel 1 s) fun s =>
  andThen (tickChannel 2 s) fun s =>
  tickChannel 3 s

/-- The end of `Tick` (R164, R167): `was` says whether the tick began with an active channel. -/
def idleStep (was : Bool) (s : State) : Res State :=
  if was && !anyActive s then serve .idle s else .next s

/-- `Tick` (R164). The model counts it once it is done, so that the events of the first tick are those of
tick 0 (R163). -/
def tick (s : State) : Res State :=
  andThen (tickChannels s) fun t =>
  andThen (idleStep (anyActive s) (musicTimerStep t)) fun t =>
  .next { t with ticks := t.ticks + 1 }

end Sys2Proof.Machine
end

