-- ==== Sys2Proof/Machine/Pull.lean ====
section
/-! DEFINITION. The fixed-point clock divider and `PULL` (R162). -/

namespace Sys2Proof.Machine

open Sys2Proof

/-- `repeat k times: FrameStep`. -/
def frames : Nat → State → Res State
  | 0, s => .next s
  | k + 1, s => andThen (frameStep s) (frames k)

/-- The whole frames before the next tick, `NEXT_TICK >> 16` (R162). -/
def wholeFrames (s : State) : Nat := s.nextTick.toNat / one

/-- `NEXT_TICK <- NEXT_TICK - (step << 16)` (R162). -/
def countDown (step : Nat) (s : State) : State :=
  s.setNextTick (BitVec.ofNat 32 (s.nextTick.toNat - step * one))

/-- What `NEXT_TICK` holds after a reload whose exact sum its 32 bits (R18) cannot hold: a free value, of
which the spec says only that the reload makes progress (R162 corner case 5), so that at least one whole
frame is left (log entry 3). -/
def overflowedTick (ticks sum : Nat) : BitVec 32 :=
  BitVec.ofNat 32 (max one (Config.freeNextTick ticks sum).toNat)

/-- `NEXT_TICK <- NEXT_TICK + TICK_STEP` (R162), keeping the fraction. -/
def reload (s : State) : State :=
  let sum := s.nextTick.toNat + tickStep s.cfg
  s.setNextTick (if sum < 2 ^ 32 then BitVec.ofNat 32 sum else overflowedTick s.ticks sum)

/-- Step (d) of the loop (R162): less than one frame left before the tick. -/
def tickIfDue (s : State) : Res State :=
  if wholeFrames s = 0 then andThen (tick s) fun t => .next (reload t) else .next s

/-- The `while produced < n` loop of R162; `left` is `n - produced`. An iteration that produces no frame
adds `TICK_STEP > 0` to a `NEXT_TICK` below `ONE`, so `ONE` of them in a row reach a frame: the bound
that `execPull` gives is never what ends the loop (`pullLoop_bound`). -/
def pullLoop : Nat → Nat → State → Res State
  | 0, _, s => .next s
  | fuel + 1, left, s =>
    if left = 0 then .next s
    else
      andThen (frames (min left (wholeFrames s)) s) fun t =>
      andThen (tickIfDue (countDown (min left (wholeFrames s)) t)) fun u =>
      pullLoop fuel (left - min left (wholeFrames s)) u

/-- Enough iterations for `n` frames. -/
def pullBound (n : Nat) : Nat := n * (one + 1) + one

/-- `PULL n` (R162). -/
def execPull (n : BitVec 24) (s : State) : Res State :=
  if tickStep s.cfg = 0 then .fault .clockStuck
  else pullLoop (pullBound n.toNat) n.toNat s

end Sys2Proof.Machine
end

