-- ==== Sys2Proof/Machine/Dispatch.lean ====
section
/-! DEFINITION. One arm per command: each calls its own meaning. -/

namespace Sys2Proof.Machine

open Sys2Proof

def exec (i : Instr) (s : State) : Host.Outcome State Fault Refusal :=
  match i with
  | .nop => Sys2Proof.Machine.execNop s
  | .reset => Sys2Proof.Machine.execReset s
  | .mode p => Sys2Proof.Machine.execMode p s
  | .setvol v => Sys2Proof.Machine.execSetvol v s
  | .wrch c r imm => Sys2Proof.Machine.execWrch c r imm s
  | .rdch c r => Sys2Proof.Machine.execRdch c r s
  | .clrch c => Sys2Proof.Machine.execClrch c s
  | .wrtpm imm => Sys2Proof.Machine.execWrtpm imm s
  | .rdtmr => Sys2Proof.Machine.execRdtmr s
  | .pull n => Sys2Proof.Machine.execPull n s

end Sys2Proof.Machine
end

