-- ==== Sys2Proof/Machine/Step.lean ====
section
/-! DEFINITION. One step: the block accepts the next command word the host presents, decodes it and
executes it to completion (R90). -/

namespace Sys2Proof.Machine

open Sys2Proof

/-- One step. While the host presents nothing the block does nothing (log entry 4); a reserved encoding
executes as `NOP` (R65). -/
def step (s : State) : Host.Outcome State Fault Refusal :=
  match s.fetch with
  | none => .next s
  | some (w, t) =>
    match decode w with
    | .ok i => exec i t
    | .error _ => execReserved t

/-- The state in which the host presents, next, the command word whose bits are `w`. -/
def State.withFetchWord (s : State) (nbits w : Nat) : State :=
  s.present (BitVec.ofNat 32 (w % 2 ^ nbits))

end Sys2Proof.Machine
end

