-- ==== Sys2Proof/Safety.lean ====
section
/-! DEFINITION. The terms claims are stated in: what stays the same, what the host may do, and the
invariants of the machine. -/

namespace Sys2Proof.Machine

open Sys2Proof

/-! ## Frames -/

/-- Every register of every slot is unchanged. -/
def SameRegisters (s t : State) : Prop := ∀ sl r, t.reg sl r = s.reg sl r

/-- The four phase bits and the four countdowns are unchanged. -/
def SameOscillators (s t : State) : Prop := t.phase = s.phase ∧ t.timerCount = s.timerCount

/-- The music timer's three registers are unchanged. -/
def SameMusicTimer (s t : State) : Prop :=
  t.musicTimer = s.musicTimer ∧ t.musicCtr = s.musicCtr ∧ t.ticksPerMusicTimer = s.ticksPerMusicTimer

/-- The configuration, `PROFILE` and `VOLTAB` are unchanged. -/
def SameSetup (s t : State) : Prop := t.inst = s.inst ∧ t.profile = s.profile ∧ t.volTab = s.volTab

/-- `RNG`, `LEVEL`, `NEXT_TICK`, the output stream and the tick count are unchanged. -/
def SameSound (s t : State) : Prop :=
  t.rng = s.rng ∧ t.level = s.level ∧ t.nextTick = s.nextTick ∧ t.out = s.out ∧ t.ticks = s.ticks

/-- The host's side is unchanged: the words and answers in hand, the results, the event history. -/
def SameHost (s t : State) : Prop :=
  t.port = s.port ∧ t.answers = s.answers ∧ t.results = s.results ∧ t.events = s.events

/-- Everything but the channel registers is unchanged. -/
def SameButRegisters (s t : State) : Prop :=
  SameOscillators s t ∧ SameMusicTimer s t ∧ SameSetup s t ∧ SameSound s t ∧ SameHost s t

/-- Everything but one slot's registers is unchanged, and of that slot the registers outside `rs`. -/
def ChangesOnly (sl : Fin 5) (rs : List Reg) (s t : State) : Prop :=
  (∀ sl' r, sl' ≠ sl ∨ r ∉ rs → t.reg sl' r = s.reg sl' r) ∧ SameButRegisters s t

/-! ## The edges of a frame -/

/-- Of `k` edges `e` in a row from `s`, a period for each that leaves oscillator `c` high: what the edge
loop of R132 adds to the high-phase duration. -/
def highPeriods (e : State → State) (c : Fin 4) (period : Nat) : Nat → State → Int
  | 0, _ => 0
  | k + 1, s => (if (e s).phase[c] then (period : Int) else 0) + highPeriods e c period k (e s)

/-! ## The host and the configuration -/

/-- A word the host may present inside a service call (R90): one of the six commands, or a reserved
encoding, which acts as `NOP` (log entry 8). -/
def serviceWordAllowed (w : CmdWord) : Bool :=
  match decode w with
  | .ok i => i.allowedInService
  | .error _ => true

/-- Every answer the host has in hand keeps to R90. -/
def hostObeys (s : State) : Bool := s.answers.all fun a => a.all serviceWordAllowed

/-- The reload of the divider always fits the 32 bits of `NEXT_TICK` (R18, R163; log entry 3). -/
def tickFits (cfg : Config) : Prop := tickStep cfg + one ≤ 2 ^ 32

/-- From byte offset `off` of the curve at word `curve`, the walk comes, after finitely many pairs inside
the ROM and below cursor 65535, to a pair of duration 0, which parks the engine (R66, R103, R105). -/
def parksFrom (hull : List Word) (curve off : Nat) : Prop :=
  ∃ k, off + 4 * (k + 1) ≤ 65535 ∧ hull[curve + off / 2 + 2 * k + 1]? = some 0

/-- Channel `c`'s engines are on well-formed curves (R105, R196, R224): a running envelope reaches a park
pair from its cursor, and a note with its note-off to come from byte offset 16; every entry that the
modulation cursor can select lies inside the `FM` ROM, where a modulo of 0 with an increment of 0 leaves
the cursor where it is. -/
def EnginesSafe (s : State) (c : Fin 4) : Prop :=
  (s.reg (chanSlot c) .hullCounter ≠ 0 →
    parksFrom s.cfg.hull (s.reg (chanSlot c) .hullCurve).toNat (s.reg (chanSlot c) .hullOffset).toNat) ∧
  (s.reg (chanSlot c) .noteLength ≠ 0 →
    parksFrom s.cfg.hull (s.reg (chanSlot c) .hullCurve).toNat 16) ∧
  (s.reg (chanSlot c) .freqmodTable).toNat +
      (if s.reg (chanSlot c) .freqmodModulo ≠ 0 then
        ((s.reg (chanSlot c) .freqmodModulo).toNat - 1) / 16
      else if s.reg (chanSlot c) .freqmodIncr = 0 then (s.reg (chanSlot c) .freqmodCursor).toNat / 16
      else 4095) < s.cfg.fm.length

/-- The host's table discipline in its service calls (R224): each answer it has in hand, served in whatever
state of the instance has every engine on a well-formed curve, leaves every engine on one. -/
def AnswersKeepCurves (s : State) : Prop :=
  ∀ a ∈ s.answers, ∀ u v : State, u.inst = s.inst → (∀ c, EnginesSafe u c) →
    serviceWords a u = .next v → ∀ c, EnginesSafe v c

/-- A state that meets the host's duties, from which a `PULL` of any length runs to its end: a volume table
(R212), engines on well-formed curves (R224), and answers that keep to R90 and to the table discipline. -/
def PullReady (s : State) : Prop :=
  s.volTab ≠ none ∧ hostObeys s = true ∧ AnswersKeepCurves s ∧ ∀ c, EnginesSafe s c

/-! ## Invariants -/

/-- The divider does not drift (R163): its position, the frames emitted and the ticks executed agree, and
it lies within the bounds of R18. -/
def ClockInv (s : State) : Prop :=
  s.nextTick.toNat + one * s.out.length = s.ticks * tickStep s.cfg ∧
    s.nextTick.toNat < tickStep s.cfg + one

/-- Once a frame has been emitted, at least one whole frame remains before the next tick (R162 (d)). -/
def TickAhead (s : State) : Prop := s.out ≠ [] → one ≤ s.nextTick.toNat

/-- Between frames every countdown is at least 0 (R16, R141). -/
def OscInv (s : State) : Prop := ∀ c, 0 ≤ s.timer c

/-- Every frame is two equal samples (R44), and `LEVEL` is the last one emitted (R17). -/
def OutputInv (s : State) : Prop :=
  (∀ f ∈ s.out, f.left = f.right) ∧
    s.level = match s.out.getLast? with
      | some f => f.left
      | none => 0

/-- The volume table is unset or a value of `VOLTAB_FN` (R20, R83). -/
def TableInv (s : State) : Prop :=
  ∀ t, s.volTab = some t → ∃ v : BitVec 8, t = s.cfg.volTabFn[v.toNat]

/-- The noise register is alive (R125 (b), R221): both masks feed back into bit 15 and neither the seed
nor the register is 0. -/
def NoiseInv (s : State) : Prop :=
  s.cfg.fbWhite.getLsbD 16 = true ∧ s.cfg.fbPeriodic.getLsbD 16 = true ∧ s.cfg.ngPreset ≠ 0 ∧ s.rng ≠ 0

end Sys2Proof.Machine
end

