-- ==== Sys2Proof/Certificates/Slice0/Obligations.lean ====
section
/-! DEFINITION. The statements for the provers. A statement that cites a rule says the whole of it; where
a clause is the model's choice the docstring says so and names the log entry. -/

open Sys2Proof Sys2Proof.Machine

/-! ## Encoding -/

/-- The decoder gives every command back from the word the formats of R60 write it as, with every operand
at every value of its field. -/
def Obligations.DecodeOfEncode : Prop :=
  ∀ i : Instr, decode (encode i) = .ok i

/-- No bit of a word that decodes is dropped: the command it decodes to is written as that word. -/
def Obligations.EncodeOfDecode : Prop :=
  ∀ (w : CmdWord) (i : Instr), decode w = .ok i → encode i = w

/-- R61: a word is a command iff it matches the command's row, and no word matches two rows. -/
def Obligations.DecodeFollowsOpcodeRows : Prop :=
  (∀ (w : CmdWord) (row : OpRow), row ∈ opRows → row.hits w = true →
      ∃ i, decode w = .ok i ∧ i.row = row) ∧
    (∀ (w : CmdWord) (i : Instr), decode w = .ok i → i.row ∈ opRows ∧ i.row.hits w = true) ∧
    opRows.Pairwise fun a b => ∀ w, ¬ (a.hits w = true ∧ b.hits w = true)

/-- Words of `spec/95_test_vectors.md` section 3, one for each command, decode to the command they
stand for. -/
def Obligations.SampleWordsDecode : Prop :=
  decode 0x00000000 = .ok .nop ∧ decode 0x01000000 = .ok .reset ∧
    decode 0x02000001 = .ok (.mode .tg) ∧ decode 0x030000FF = .ok (.setvol 255) ∧
    decode 0x04420A97 = .ok (.wrch 2 2 2711) ∧ decode 0x05E50000 = .ok (.rdch 7 5) ∧
    decode 0x06A00000 = .ok (.clrch 5) ∧ decode 0x07000002 = .ok (.wrtpm 2) ∧
    decode 0x08000000 = .ok .rdtmr ∧ decode 0x090000BB = .ok (.pull 187)

/-- R65: a word that matches no row is a reserved encoding and executes as `NOP`: nothing of the block's
state differs in the next state. That the word stands in a list, `port`, from which the step takes it, is
the model's choice (log entry 4). -/
def Obligations.ReservedWordActsAsNop : Prop :=
  ∀ (s : State) (w : CmdWord) (ws : List CmdWord), s.port = w :: ws →
    (∀ row ∈ opRows, row.hits w = false) →
    (∃ e, decode w = .error e) ∧ step s = .next { s with port := ws }

/-- A step runs the decoded command: it is `exec` of it in the state in which the word is taken from the
port (R90; that the port is a list in the state is the model's choice, log entry 4). -/
def Obligations.StepRunsDecodedCommand : Prop :=
  ∀ (s : State) (w : CmdWord) (ws : List CmdWord) (i : Instr), s.port = w :: ws → decode w = .ok i →
    step s = exec i { s with port := ws }

/-- The model's choices of log entry 4: a step with no word in hand changes nothing, and the command that
`withFetchWord` presents is the one that the next step runs. -/
def Obligations.PresentedCommandRunsNext : Prop :=
  (∀ s : State, s.port = [] → step s = .next s) ∧
    ∀ (s : State) (i : Instr), step (s.withFetchWord 32 (encode i).toNat) = exec i s

/-! ## Instance control -/

/-- R80: `NOP` leaves every register, the output stream and the event history as they were. -/
def Obligations.NopChangesNothing : Prop :=
  ∀ s : State, exec .nop s = .next s

/-- R81: what `RESET` leaves in every piece of the block's state, from any state and for any
configuration. -/
def Obligations.ResetGivesResetState : Prop :=
  ∀ s : State, ∃ t, exec .reset s = .next t ∧
    (∀ sl r, t.reg sl r = 0) ∧ t.rng = s.cfg.ngPreset ∧
    (∀ c : Fin 4, t.phase[c] = false ∧ t.timer c = 0) ∧
    t.level = 0 ∧ t.nextTick = 0 ∧ t.profile = s.cfg.profileInit ∧ t.volTab = none ∧
    t.musicTimer = 0 ∧ t.musicCtr = 0 ∧ t.ticksPerMusicTimer = s.cfg.tpmReset ∧ t.out = []

/-- The model's choice of log entry 7: `RESET` keeps the configuration and what the host has in hand, and
the record of the run starts again. -/
def Obligations.ResetKeepsHostInputs : Prop :=
  ∀ s : State, ∃ t, exec .reset s = .next t ∧ t.inst = s.inst ∧ t.port = s.port ∧
    t.answers = s.answers ∧ t.results = [] ∧ t.events = [] ∧ t.ticks = 0

/-- R82: `MODE p` sets the profile, clears the four phases and countdowns, and keeps everything else. -/
def Obligations.ModeSetsProfileAndClearsOscillators : Prop :=
  ∀ (p : Profile) (s : State), ∃ t, exec (.mode p) s = .next t ∧ t.profile = p ∧
    (∀ c : Fin 4, t.phase[c] = false ∧ t.timer c = 0) ∧
    SameRegisters s t ∧ SameMusicTimer s t ∧ t.inst = s.inst ∧ t.volTab = s.volTab ∧
    SameSound s t ∧ SameHost s t

/-- R83: `SETVOL v` replaces the whole table by `VOLTAB_FN(v)` and changes nothing else. -/
def Obligations.SetvolReplacesTable : Prop :=
  ∀ (v : BitVec 8) (s : State), ∃ t, exec (.setvol v) s = .next t ∧
    (∃ tab, t.volTab = some tab ∧ ∀ i : Fin 16, tab[i] = (s.cfg.volTabFn[v.toNat])[i]) ∧
    SameRegisters s t ∧ SameOscillators s t ∧ SameMusicTimer s t ∧ t.inst = s.inst ∧
    t.profile = s.profile ∧ SameSound s t ∧ SameHost s t

/-- R84 for what `SETVOL` leaves: the entries never rise, entry 15 is silence, volume 0 is all silence. -/
def Obligations.SetvolTableFalls : Prop :=
  ∀ (v : BitVec 8) (s : State),
    ∃ t tab, exec (.setvol v) s = .next t ∧ t.volTab = some tab ∧
      (∀ i j : Fin 16, i ≤ j → tab[j] ≤ tab[i]) ∧ tab[15] = 0 ∧
      (v = 0 → ∀ i : Fin 16, tab[i] = 0)

/-! ## Channel registers -/

/-- R85: `WRCH` writes one register of the resolved slot, or nothing where the index names none, and
changes nothing else. -/
def Obligations.WrchWritesOneRegister : Prop :=
  ∀ (c : BitVec 3) (r : BitVec 5) (imm : Word) (s : State), ∃ t, exec (.wrch c r imm) s = .next t ∧
    (∀ sl q, t.reg sl q =
      if sl = slotOf c ∧ q.index.val = r.toNat then imm else s.reg sl q) ∧
    SameButRegisters s t

/-- R86: `RDCH` returns the register of the resolved slot, or 0 where the index names none; reading
changes nothing. -/
def Obligations.RdchReturnsRegister : Prop :=
  ∀ (c : BitVec 3) (r : BitVec 5) (s : State), ∃ v : Word,
    exec (.rdch c r) s = .next { s with results := s.results ++ [.half v] } ∧
    (∀ q : Reg, q.index.val = r.toNat → v = s.reg (slotOf c) q) ∧
    (23 ≤ r.toNat → v = 0)

/-- R87: `CLRCH` zeroes the 23 registers of the resolved slot and changes nothing else, the oscillator's
phase and countdown among it. -/
def Obligations.ClrchClearsOneSlot : Prop :=
  ∀ (c : BitVec 3) (s : State), ∃ t, exec (.clrch c) s = .next t ∧
    (∀ sl q, t.reg sl q = if sl = slotOf c then 0 else s.reg sl q) ∧ SameButRegisters s t

/-- R85, R41: the written pattern is what a following `RDCH` returns, through any channel index that
resolves to the same slot. -/
def Obligations.WrittenPatternIsReadBack : Prop :=
  ∀ (c d : BitVec 3) (r : BitVec 5) (imm : Word) (s : State), slotOf c = slotOf d → r.toNat < 23 →
    ∃ t, andThen (exec (.wrch c r imm) s) (exec (.rdch d r)) = .next t ∧
      t.results = s.results ++ [.half imm]

/-- R62: channel indices 0 to 3 are their own slots and 4 to 7 the sentinel; through those, `WRCH` writes
the sentinel's register, `CLRCH` clears the sentinel, neither changes a real channel, and `RDCH` reads the
sentinel. -/
def Obligations.OutOfRangeChannelIsSentinel : Prop :=
  (∀ c : BitVec 3, (slotOf c).val = if c.toNat < 4 then c.toNat else 4) ∧
    ∀ (c : BitVec 3) (r : BitVec 5) (imm : Word) (s : State), 4 ≤ c.toNat →
      (∃ t, exec (.wrch c r imm) s = .next t ∧ (∀ q : Reg, q.index.val = r.toNat → t.reg 4 q = imm) ∧
        ∀ sl q, sl ≠ 4 → t.reg sl q = s.reg sl q) ∧
      (∃ t, exec (.clrch c) s = .next t ∧ (∀ q, t.reg 4 q = 0) ∧
        ∀ sl q, sl ≠ 4 → t.reg sl q = s.reg sl q) ∧
      ∀ q : Reg, q.index.val = r.toNat →
        exec (.rdch c r) s = .next { s with results := s.results ++ [.half (s.reg 4 q)] }

/-- R64: register indices 23 to 31 name no register: `WRCH` writes nothing, `RDCH` returns 0. -/
def Obligations.ReservedRegisterIndexIsInert : Prop :=
  ∀ (c : BitVec 3) (r : BitVec 5) (imm : Word) (s : State), 23 ≤ r.toNat →
    exec (.wrch c r imm) s = .next s ∧
      exec (.rdch c r) s = .next { s with results := s.results ++ [.half 0] }

/-- The operand tables: the register index of R63 selects the register of R12 with that index, 23 to 31
none, and the index of a register is the one it is selected by; the noise control value is read as R68
says, and the attenuation is `15 - VOLUME[15:12]` (R69). -/
def Obligations.OperandTables : Prop :=
  (regOf 0 = some .timeLeft ∧ regOf 1 = some .nextCmd ∧ regOf 2 = some .baseFreq ∧
      regOf 3 = some .freqDelta ∧ regOf 4 = some .freq ∧ regOf 5 = some .volume ∧
      regOf 6 = some .volumeDelta ∧ regOf 7 = some .tempo ∧ regOf 8 = some .interNotePause ∧
      regOf 9 = some .transpose ∧ regOf 10 = some .noteLength ∧ regOf 11 = some .hullCurve ∧
      regOf 12 = some .hullOffset ∧ regOf 13 = some .hullCounter ∧
      regOf 14 = some .freqmodTable ∧ regOf 15 = some .freqmodCursor ∧
      regOf 16 = some .freqmodIncr ∧ regOf 17 = some .freqmodMult ∧
      regOf 18 = some .freqmodModulo ∧ regOf 19 = some .scratch0 ∧
      regOf 20 = some .scratch1 ∧ regOf 21 = some .scratch2 ∧ regOf 22 = some .scratch3) ∧
    (∀ r : BitVec 5, 23 ≤ r.toNat → regOf r = none) ∧
    (∀ (r : BitVec 5) (q : Reg), regOf r = some q ↔ q.index.val = r.toNat) ∧
    (∀ (cfg : Config) (f f2 : Nat),
      noiseMask cfg f = (if f / 4 % 2 = 1 then cfg.fbWhite else cfg.fbPeriodic) ∧
      noiseInput f f2 = if f % 4 = 0 then 32 else if f % 4 = 1 then 64 else if f % 4 = 2 then 128
        else 2 * f2) ∧
    ∀ v : Word, (volIndex v).val + (v.extractLsb' 12 4).toNat = 15

/-! ## The music timer -/

/-- R88, R89: `WRTPM` writes the prescaler and leaves the counter; `RDTMR` returns the timer and changes
nothing. -/
def Obligations.MusicTimerCommands : Prop :=
  (∀ (imm : Word) (s : State), exec (.wrtpm imm) s = .next { s with ticksPerMusicTimer := imm }) ∧
    ∀ s : State, exec .rdtmr s = .next { s with results := s.results ++ [.word s.musicTimer] }

/-- R168: the music timer step, which changes nothing else, and which a tick makes exactly once whether or
not a channel is active (said for a host that does nothing at service points, since a host may write the
prescaler there). -/
def Obligations.MusicTimerStepsOncePerTick : Prop :=
  (∀ s : State,
    (s.ticksPerMusicTimer.toNat ≤ (s.musicCtr.toNat + 1) % 65536 →
      musicTimerStep s = { s with musicCtr := 0, musicTimer := s.musicTimer + 1 }) ∧
    ((s.musicCtr.toNat + 1) % 65536 < s.ticksPerMusicTimer.toNat →
      musicTimerStep s = { s with musicCtr := s.musicCtr + 1 })) ∧
    ∀ s t : State, s.answers = [] → tick s = .next t →
      t.musicCtr = (musicTimerStep s).musicCtr ∧ t.musicTimer = (musicTimerStep s).musicTimer ∧
      t.ticksPerMusicTimer = s.ticksPerMusicTimer

/-! ## The envelope engine -/

/-- R101, R110: the two ramps of a tick wrap modulo 2^16 and change nothing else. -/
def Obligations.RampsWrap : Prop :=
  ∀ (sl : Fin 5) (s : State),
    (((volumeRamp sl s).reg sl .volume).toNat =
        ((s.reg sl .volume).toNat + (s.reg sl .volumeDelta).toNat) % 65536 ∧
      ChangesOnly sl [.volume] s (volumeRamp sl s)) ∧
    ((baseRamp sl s).reg sl .baseFreq).toNat =
        ((s.reg sl .baseFreq).toNat + (s.reg sl .freqDelta).toNat) % 65536 ∧
      ChangesOnly sl [.baseFreq] s (baseRamp sl s)

/-- R102: no note-off pending changes nothing; a note that does not end counts down; a note that ends
puts the cursor at byte 16 and the counter at 1. -/
def Obligations.NoteOffStartsRelease : Prop :=
  ∀ (sl : Fin 5) (s : State),
    ((s.reg sl .noteLength).toNat = 0 → noteOff sl s = s) ∧
    (2 ≤ (s.reg sl .noteLength).toNat →
      ((noteOff sl s).reg sl .noteLength).toNat = (s.reg sl .noteLength).toNat - 1 ∧
      ChangesOnly sl [.noteLength] s (noteOff sl s)) ∧
    ((s.reg sl .noteLength).toNat = 1 →
      (noteOff sl s).reg sl .noteLength = 0 ∧ (noteOff sl s).reg sl .hullOffset = 16 ∧
      (noteOff sl s).reg sl .hullCounter = 1 ∧
      ChangesOnly sl [.noteLength, .hullOffset, .hullCounter] s (noteOff sl s))

/-- R100, R103: a parked engine does nothing, a waiting one counts down, and the 1 to 0 transition
evaluates the pair under the cursor. -/
def Obligations.HullStepCountsDown : Prop :=
  ∀ (sl : Fin 5) (s : State),
    ((s.reg sl .hullCounter).toNat = 0 → hullStep sl s = .next s) ∧
    (2 ≤ (s.reg sl .hullCounter).toNat →
      ∃ t, hullStep sl s = .next t ∧
        (t.reg sl .hullCounter).toNat = (s.reg sl .hullCounter).toNat - 1 ∧
        ChangesOnly sl [.hullCounter] s t) ∧
    ((s.reg sl .hullCounter).toNat = 1 → hullStep sl s = hullEval sl (s.setReg sl .hullCounter 0))

/-- R103: one pair of the walk. A ramp pair `(a, b)` sets the delta and the counter and ends it; a hold
pair sets the level, clears the delta where the level is 0, and the walk goes on from the next pair. -/
def Obligations.HullEvalTakesOnePair : Prop :=
  ∀ (sl : Fin 5) (s : State) (p : Nat) (a b : Word),
    p = (s.reg sl .hullCurve).toNat + (s.reg sl .hullOffset).toNat / 2 →
    s.cfg.hull[p]? = some a → s.cfg.hull[p + 1]? = some b →
    (s.reg sl .hullOffset).toNat + 4 ≤ 65535 →
    (b ≠ 0xFFFF → ∃ t, hullEval sl s = .next t ∧
      t.reg sl .volumeDelta = a ∧ t.reg sl .hullCounter = b ∧
      (t.reg sl .hullOffset).toNat = (s.reg sl .hullOffset).toNat + 4 ∧
      ChangesOnly sl [.volumeDelta, .hullCounter, .hullOffset] s t) ∧
    (b = 0xFFFF → ∃ t, hullEval sl s = hullEval sl t ∧
      t.reg sl .volume = a ∧
      t.reg sl .volumeDelta = (if a = 0 then 0 else s.reg sl .volumeDelta) ∧
      (t.reg sl .hullOffset).toNat = (s.reg sl .hullOffset).toNat + 4 ∧
      ChangesOnly sl [.volume, .volumeDelta, .hullOffset] s t)

/-- R107: a hold pair `(L, 0xFFFF)` followed by `(0, 0)` sets the level and parks the engine, after which
the ramp and the hull step leave the channel as it is. -/
def Obligations.TerminalHoldParks : Prop :=
  ∀ (sl : Fin 5) (s : State) (p : Nat) (level : Word),
    p = (s.reg sl .hullCurve).toNat + (s.reg sl .hullOffset).toNat / 2 →
    s.cfg.hull[p]? = some level → s.cfg.hull[p + 1]? = some 0xFFFF →
    s.cfg.hull[p + 2]? = some 0 → s.cfg.hull[p + 3]? = some 0 →
    (s.reg sl .hullOffset).toNat + 8 ≤ 65535 →
    ∃ t, hullEval sl s = .next t ∧ t.reg sl .volume = level ∧ t.reg sl .volumeDelta = 0 ∧
      t.reg sl .hullCounter = 0 ∧
      (t.reg sl .hullOffset).toNat = (s.reg sl .hullOffset).toNat + 8 ∧
      ChangesOnly sl [.volume, .volumeDelta, .hullOffset, .hullCounter] s t ∧
      SameRegisters t (volumeRamp sl t) ∧ hullStep sl t = .next t

/-- R105, R104, R42: an evaluation ends at a ramp pair after at most `min(16384, HULL_LEN / 2)` pairs, the
cursor 4 bytes further for each, having changed only the four registers of the engine, or raises
`HullBounds`; and it raises it where the first pair lies past the ROM or the cursor would pass 65535. -/
def Obligations.HullEvalEndsOrFaults : Prop :=
  ∀ (sl : Fin 5) (s : State),
    (hullEval sl s = .fault .hullBounds ∨
      ∃ t k, hullEval sl s = .next t ∧ 1 ≤ k ∧ k ≤ 16384 ∧ 2 * k ≤ s.cfg.hull.length ∧
        (t.reg sl .hullOffset).toNat = (s.reg sl .hullOffset).toNat + 4 * k ∧
        t.reg sl .hullCounter ≠ 0xFFFF ∧
        ChangesOnly sl [.volume, .volumeDelta, .hullOffset, .hullCounter] s t) ∧
    (s.cfg.hull.length ≤
          (s.reg sl .hullCurve).toNat + (s.reg sl .hullOffset).toNat / 2 + 1 ∨
        65535 < (s.reg sl .hullOffset).toNat + 4 →
      hullEval sl s = .fault .hullBounds)

/-! ## The frequency-modulation engine -/

/-- R111: the cursor advances by the increment and wraps by the true remainder, modulo 2^16 where the
modulo register is 0; nothing else changes. -/
def Obligations.CursorWrapsByModulo : Prop :=
  ∀ (sl : Fin 5) (s : State),
    ((cursorAdvance sl s).reg sl .freqmodCursor).toNat =
        ((s.reg sl .freqmodCursor).toNat + (s.reg sl .freqmodIncr).toNat) %
          (if (s.reg sl .freqmodModulo).toNat = 0 then 65536 else (s.reg sl .freqmodModulo).toNat) ∧
      ChangesOnly sl [.freqmodCursor] s (cursorAdvance sl s)

/-- R112: with the entry inside the ROM, `FREQ` is the base plus the signed entry times the unsigned
multiplier over 256, divided toward zero and wrapped; otherwise `FmBounds`. -/
def Obligations.EffectiveFrequencyFollowsTable : Prop :=
  ∀ (sl : Fin 5) (s : State) (idx : Nat),
    idx = (s.reg sl .freqmodTable).toNat + (s.reg sl .freqmodCursor).toNat / 16 →
    (∀ m : BitVec 8, s.cfg.fm[idx]? = some m →
      ∃ t, effectiveFreq sl s = .next t ∧
        ((t.reg sl .freq).toNat : Int) =
          ((s.reg sl .baseFreq).toNat +
            Int.tdiv (m.toInt * (s.reg sl .freqmodMult).toNat) 256) % 65536 ∧
        ChangesOnly sl [.freq] s t) ∧
    (s.cfg.fm.length ≤ idx → effectiveFreq sl s = .fault .fmBounds)

/-- R164, R165, R113: a tick is the channel loop, then the music timer step, then `IDLE` where the tick
began with an active channel and ends with none, whatever the host does in it (the count of ticks that ends
it is the model's, log entry 6). In the loop the four channels take their turns in order; the tick of an
active channel is the seven operations in their order, and a channel that is not active when its turn comes
is skipped, so that it keeps its 23 registers while others are ticked; and after its tick a channel's `FREQ`
is the value of R112 on the operand registers after that tick. (The last two for a host that does nothing at
the service points, since a host may write the registers there.) -/
def Obligations.ChannelTickRunsSevenOperations : Prop :=
  (∀ s : State, ∃ was : Bool,
    (was = true ↔ ∃ c, s.reg (chanSlot c) .timeLeft ≠ 0) ∧
    tick s = andThen (tickChannels s) fun t => andThen (idleStep was (musicTimerStep t)) fun u =>
      .next { u with ticks := u.ticks + 1 }) ∧
  (∀ (was : Bool) (s : State),
    (was = true → (∀ c, s.reg (chanSlot c) .timeLeft = 0) → idleStep was s = serve .idle s) ∧
    (was = false ∨ (∃ c, s.reg (chanSlot c) .timeLeft ≠ 0) → idleStep was s = .next s)) ∧
  (∀ (c : Fin 4) (s : State),
    chTick c s =
      andThen (effectiveFreq (chanSlot c)
        (cursorAdvance (chanSlot c) (baseRamp (chanSlot c) (volumeRamp (chanSlot c) s)))) fun u =>
      andThen (hullStep (chanSlot c) (noteOff (chanSlot c) u)) fun v => durationStep c v) ∧
  (∀ s : State, tickChannels s =
    andThen (tickChannel 0 s) fun s => andThen (tickChannel 1 s) fun s =>
      andThen (tickChannel 2 s) fun s => tickChannel 3 s) ∧
  (∀ (c : Fin 4) (s : State),
    (s.reg (chanSlot c) .timeLeft ≠ 0 → tickChannel c s = chTick c s) ∧
    (s.reg (chanSlot c) .timeLeft = 0 → tickChannel c s = .next s)) ∧
  (∀ (c : Fin 4) (s t : State), s.answers = [] → tick s = .next t →
    s.reg (chanSlot c) .timeLeft = 0 → ∀ r, t.reg (chanSlot c) r = s.reg (chanSlot c) r) ∧
  ∀ (c : Fin 4) (s t : State), s.answers = [] → chTick c s = .next t →
    ∃ m : BitVec 8,
      t.cfg.fm[(t.reg (chanSlot c) .freqmodTable).toNat +
        (t.reg (chanSlot c) .freqmodCursor).toNat / 16]? = some m ∧
      ((t.reg (chanSlot c) .freq).toNat : Int) =
        ((t.reg (chanSlot c) .baseFreq).toNat +
          Int.tdiv (m.toInt * (t.reg (chanSlot c) .freqmodMult).toNat) 256) % 65536

/-! ## The noise generator -/

/-- R121: one edge shifts the register right, with the mask's bits 16 to 1 applied where the old bit 0 was
1, and toggles the channel's phase in that case only. -/
def Obligations.LfsrEdgeShiftsAndToggles : Prop :=
  ∀ (fb : Mask) (c : Fin 4) (s : State),
    (lfsrEdge fb c s).rng =
        (s.rng >>> 1) ^^^ (if s.rng.getLsbD 0 then fb.extractLsb' 1 16 else 0) ∧
      (∀ c' : Fin 4, (lfsrEdge fb c s).phase[c'] =
        if c' = c ∧ s.rng.getLsbD 0 = true then !s.phase[c'] else s.phase[c']) ∧
      lfsrEdge fb c s = { s with rng := (lfsrEdge fb c s).rng, phase := (lfsrEdge fb c s).phase }

/-- R125 (b), R221: the step of the register is invertible iff mask bit 16 is 1; then a nonzero register
never reaches 0; 0 is a fixed point of every mask. -/
def Obligations.LfsrInvertibleIffTopTap : Prop :=
  ∀ fb : Mask,
    (Function.Bijective (lfsrNext fb) ↔ fb.getLsbD 16 = true) ∧
    (fb.getLsbD 16 = true → ∀ x : Word, x ≠ 0 → lfsrNext fb x ≠ 0) ∧
    lfsrNext fb 0 = 0

/-- R122: a frame in which the noise channel is not rendered (the speaker, or channel 3 not sounding)
leaves `RNG` and `PHASE[3]` alone. -/
def Obligations.SilentNoiseKeepsRegister : Prop :=
  ∀ s t : State, (s.profile = .spk ∨ sounding s 3 = false) → frameStep s = .next t →
    t.rng = s.rng ∧ t.phase[3] = s.phase[3]

/-! ## The oscillator, the mix and the filter -/

/-- R132, R141: from a countdown of at least 0 an oscillator ends its frame with a positive countdown, a
high-phase duration within the frame, an `ACC` within 16 bits, and nothing of the other oscillators or of
the rest of the machine changed. The upper bound of the countdown, the period or what was left of a longer
one, departs from corner case 1 of R132 (at most the period), which is inexact where the period has just
become shorter: it is DEDUCED from the pseudocode of R132 (log entry 13). -/
def Obligations.OscillatorStaysInFrame : Prop :=
  ∀ (c : Fin 4) (f : Nat) (vt : Word) (fb : Option Mask) (s t : State) (acc a : Int),
    0 ≤ s.timer c → osc c f vt fb (s, acc) = .next (t, a) →
    0 < t.timer c ∧ t.timer c ≤ max (s.timer c - 65536) (oscPeriod s f) ∧
      0 ≤ (oscSpan c (oscPeriod s f) fb s).1 ∧ (oscSpan c (oscPeriod s f) fb s).1 ≤ 65536 ∧
      -32768 ≤ a ∧ a ≤ 32767 ∧
      (∀ c' : Fin 4, c' ≠ c → t.timer c' = s.timer c' ∧ t.phase[c'] = s.phase[c']) ∧
      (fb = none → t.rng = s.rng) ∧
      SameRegisters s t ∧ SameMusicTimer s t ∧ SameSetup s t ∧ SameHost s t ∧
      t.level = s.level ∧ t.nextTick = s.nextTick ∧ t.out = s.out ∧ t.ticks = s.ticks

/-- R132, R121, R139: the exact frame of an oscillator, whatever the number of edges in it. An edge `e` is a
plain toggle of a melodic oscillator, and the step of the noise register of a noise oscillator. The frame has
`k` edges: none while the countdown outlasts it, else as many as take the countdown into `1 .. period`. It
leaves the state after those edges in a row, with that countdown, and its high-phase duration is the pending
stretch and the period after each edge, where the phase is then high, less what lies beyond the frame. Written
out for no edge, for one melodic edge and for one noise edge. The period is `UPDATE_STEP[PROFILE] * f`, or
`UPDATE_STEP[PROFILE]` for a zero input. -/
def Obligations.OscillatorFrameRunsItsEdges : Prop :=
  ∀ (c : Fin 4) (f : Nat) (vt : Word) (s : State) (acc : Int) (period : Nat),
    period = (if f = 0 then updateStep s.cfg s.profile else updateStep s.cfg s.profile * f) →
    0 < period → period < 2 ^ 31 →
    (∀ (fb : Option Mask) (e : State → State) (k : Nat) (rest d : Int),
      (fb = none → e = fun u => u.togglePhase c) → (∀ m, fb = some m → e = lfsrEdge m c) →
      0 ≤ s.timer c → rest = s.timer c - 65536 + k * period →
      ((65536 < s.timer c ∧ k = 0) ∨ (s.timer c ≤ 65536 ∧ 0 < rest ∧ rest ≤ period)) →
      d = (if s.phase[c] then s.timer c else 0) + highPeriods e c period k s -
        (if (e^[k] s).phase[c] then rest else 0) →
      osc c f vt fb (s, acc) =
        .next ((e^[k] s).setTimer c rest, clamp16 (acc + (d - 32768) * vt.toNat / 65536))) ∧
    (65536 < s.timer c → ∀ fb : Option Mask,
      osc c f vt fb (s, acc) = .next (s.setTimer c (s.timer c - 65536),
        clamp16 (acc + if s.phase[c] then (vt.toNat : Int) / 2 else -(((vt.toNat : Int) + 1) / 2)))) ∧
    (0 ≤ s.timer c → s.timer c ≤ 65536 → 65536 < s.timer c + period →
      osc c f vt none (s, acc) = .next ((s.togglePhase c).setTimer c (s.timer c - 65536 + period),
        clamp16 (acc +
          ((if s.phase[c] then s.timer c else 65536 - s.timer c) - 32768) * vt.toNat / 65536)) ∧
      ∀ m : Mask, osc c f vt (some m) (s, acc) =
        .next ((lfsrEdge m c s).setTimer c (s.timer c - 65536 + period),
          clamp16 (acc + ((if s.phase[c] then s.timer c else 0) +
            (if (lfsrEdge m c s).phase[c] then 65536 - s.timer c else 0) - 32768) * vt.toNat / 65536)))

/-- R131: a frame in which some channel sounds and no table is set raises `VolTabUnset`; a frame in which
none sounds never does, and completes. -/
def Obligations.UnsetTableFaultsOnlyWhenSounding : Prop :=
  ∀ s : State,
    (s.volTab = none → (∃ c, sounding s c = true) → frameStep s = .fault .volTabUnset) ∧
    ((∀ c, sounding s c = false) → ∃ t, frameStep s = .next t)

/-- R135: what phase synchronisation leaves in the four oscillators, that it changes nothing else, and
that doing it again changes nothing. -/
def Obligations.PhaseSyncAlignsEqualChannels : Prop :=
  ∀ (s : State) (eq : Fin 4 → Fin 4 → Prop),
    (∀ i j, eq i j ↔ sounding s i = true ∧ sounding s j = true ∧
      (s.reg (chanSlot i) .freq).toNat / 64 = (s.reg (chanSlot j) .freq).toNat / 64) →
    ((phaseSync s).timerCount[0] = s.timerCount[0] ∧ (phaseSync s).phase[0] = s.phase[0]) ∧
    ((phaseSync s).timerCount[3] = s.timerCount[3] ∧ (phaseSync s).phase[3] = s.phase[3]) ∧
    (eq 1 0 → (phaseSync s).timerCount[1] = s.timerCount[0] ∧ (phaseSync s).phase[1] = s.phase[0]) ∧
    (¬ eq 1 0 → (phaseSync s).timerCount[1] = s.timerCount[1] ∧ (phaseSync s).phase[1] = s.phase[1]) ∧
    (eq 2 1 → (phaseSync s).timerCount[2] = (phaseSync s).timerCount[1] ∧
      (phaseSync s).phase[2] = (phaseSync s).phase[1]) ∧
    (¬ eq 2 1 → eq 2 0 →
      (phaseSync s).timerCount[2] = s.timerCount[0] ∧ (phaseSync s).phase[2] = s.phase[0]) ∧
    (¬ eq 2 1 → ¬ eq 2 0 →
      (phaseSync s).timerCount[2] = s.timerCount[2] ∧ (phaseSync s).phase[2] = s.phase[2]) ∧
    phaseSync s =
      { s with timerCount := (phaseSync s).timerCount, phase := (phaseSync s).phase } ∧
    phaseSync (phaseSync s) = phaseSync s

/-- R137: in the `TG` profile a channel that is not sounding drains its countdown and keeps its phase; in
the `SPK` profile oscillators 1 to 3 are never touched, and oscillator 0 is not when no channel wins. -/
def Obligations.SilentChannelDrains : Prop :=
  ∀ s t : State, frameStep s = .next t →
    (s.profile = .tg → ∀ c : Fin 4, sounding s c = false →
      t.timer c = max 0 (s.timer c - 65536) ∧ t.phase[c] = s.phase[c]) ∧
    (s.profile = .spk → ∀ c : Fin 4, (c ≠ 0 ∨ ∀ d, sounding s d = false) →
      t.timer c = s.timer c ∧ t.phase[c] = s.phase[c])

/-- R138, R139, R131, R140: what each profile renders. The tone generator synchronises the phases and then
takes channels 0 to 3 in order on one `ACC`: a silent channel drains, a sounding melodic one is rendered at
`FREQ / 64` and `VOLTAB[15 - VOLUME[15:12]]`, and channel 3 as noise at the input and with the mask of its
control value. The speaker renders the smallest sounding channel's whole `FREQ` on oscillator 0 at
`VOLTAB[0]`. A channel to be rendered with no table set faults. -/
def Obligations.MixRendersSoundingChannels : Prop :=
  (∀ s : State, tgMix s =
    andThen (tgChannel 0 (phaseSync s, 0)) fun x => andThen (tgChannel 1 x) fun x =>
      andThen (tgChannel 2 x) fun x => tgChannel 3 x) ∧
  (∀ (c : Fin 4) (s : State) (acc : Int), sounding s c = false →
    tgChannel c (s, acc) = .next (s.setTimer c (max 0 (s.timer c - 65536)), acc)) ∧
  (∀ (c : Fin 4) (s : State) (acc : Int) (tab : VolTab) (i : Fin 16), sounding s c = true → c ≠ 3 →
    s.volTab = some tab → i.val + (s.reg (chanSlot c) .volume).toNat / 4096 = 15 →
    tgChannel c (s, acc) = osc c ((s.reg (chanSlot c) .freq).toNat / 64) tab[i] none (s, acc)) ∧
  (∀ (s : State) (acc : Int) (tab : VolTab) (i : Fin 16) (f : Nat), sounding s 3 = true →
    s.volTab = some tab → i.val + (s.reg (chanSlot 3) .volume).toNat / 4096 = 15 →
    f = (s.reg (chanSlot 3) .freq).toNat / 64 →
    tgChannel 3 (s, acc) =
      osc 3 (if f % 4 = 0 then 32 else if f % 4 = 1 then 64 else if f % 4 = 2 then 128
          else 2 * ((s.reg (chanSlot 2) .freq).toNat / 64))
        tab[i] (some (if f / 4 % 2 = 1 then s.cfg.fbWhite else s.cfg.fbPeriodic)) (s, acc)) ∧
  (∀ (c : Fin 4) (s : State) (acc : Int), sounding s c = true → s.volTab = none →
    tgChannel c (s, acc) = .fault .volTabUnset) ∧
  ∀ s : State,
    (∀ (w : Fin 4) (tab : VolTab), sounding s w = true → (∀ j, j < w → sounding s j = false) →
      s.volTab = some tab →
      spkMix s = osc 0 (s.reg (chanSlot w) .freq).toNat tab[0] none (s, 0)) ∧
    ((∃ w, sounding s w = true) → s.volTab = none → spkMix s = .fault .volTabUnset) ∧
    ((∀ c, sounding s c = false) → spkMix s = .next (s, 0))

/-- R151, R153, R154: the filter step is exact on 16-bit inputs, and its result lies between the old level
and the input; nothing else changes. The coefficient is the preset of the current profile at sample rates
of 30000 and above, and one squaring of it for each halving of the rate below; it is below 65536. (That the
coefficient is derived and not a parameter of its own, which R153 also allows, is the model's choice, log
entry 11.) -/
def Obligations.FilterStepIsWeightedMean : Prop :=
  (∀ (s : State) (acc : Int), -32768 ≤ acc → acc ≤ 32767 →
    decay s.cfg s.profile ≤ 65535 ∧
    (lpfStep acc s).level.toInt =
      (s.level.toInt * decay s.cfg s.profile + acc * (65536 - decay s.cfg s.profile)) / 65536 ∧
    min s.level.toInt acc ≤ (lpfStep acc s).level.toInt ∧
    (lpfStep acc s).level.toInt ≤ max s.level.toInt acc ∧
    lpfStep acc s = { s with level := (lpfStep acc s).level }) ∧
  (∀ cfg : Config, decay cfg .spk = decayFor cfg.decayPresetSpk cfg.sampleRate ∧
    decay cfg .tg = decayFor cfg.decayPresetTg cfg.sampleRate) ∧
  ∀ (preset : Word) (rate : Nat),
    (30000 ≤ rate → decayFor preset rate = preset.toNat) ∧
    (0 < rate → rate < 30000 →
      decayFor preset rate = decayFor preset (2 * rate) * decayFor preset (2 * rate) / 65536)

/-- R136, R150: a frame step mixes as the current profile says, filters the mix into `LEVEL` and emits
exactly one frame, `(LEVEL, LEVEL)`; it writes no channel register, no `NEXT_TICK`, no timer and nothing of
the host's side. -/
def Obligations.FrameStepEmitsOneFrame : Prop :=
  (∀ s : State, (s.profile = .spk → mix s = spkMix s) ∧ (s.profile = .tg → mix s = tgMix s)) ∧
  (∀ s u : State, ∀ acc : Int, mix s = .next (u, acc) →
    ∃ t, frameStep s = .next t ∧ t.level = (lpfStep acc u).level ∧ t.phase = u.phase ∧
      t.timerCount = u.timerCount ∧ t.rng = u.rng) ∧
  ∀ s t : State, frameStep s = .next t →
    t.out = s.out ++ [⟨t.level, t.level⟩] ∧ SameRegisters s t ∧ SameMusicTimer s t ∧
      SameSetup s t ∧ t.nextTick = s.nextTick ∧ t.ticks = s.ticks ∧ SameHost s t

/-! ## The tick -/

/-- R164: a tick, whatever the host does in it, never touches the oscillators, `RNG`, `LEVEL`,
`NEXT_TICK`, the output stream, the profile, the volume table or the configuration. -/
def Obligations.TickLeavesGeneratorsAlone : Prop :=
  ∀ s t : State, tick s = .next t →
    SameOscillators s t ∧ SameSetup s t ∧ t.rng = s.rng ∧ t.level = s.level ∧
      t.nextTick = s.nextTick ∧ t.out = s.out ∧ t.port = s.port ∧ t.ticks = s.ticks + 1

/-- R164, R167: a tick that begins with no active channel steps the music timer and does nothing else: no
register of any slot changes and no event is raised. -/
def Obligations.TickWithNoActiveChannel : Prop :=
  ∀ s : State, (∀ c, active s c = false) →
    ∃ t, tick s = .next t ∧ SameRegisters s t ∧ SameOscillators s t ∧ SameSetup s t ∧
      SameHost s t ∧ t.rng = s.rng ∧ t.level = s.level ∧ t.nextTick = s.nextTick ∧ t.out = s.out ∧
      t.musicCtr = (musicTimerStep s).musicCtr ∧ t.musicTimer = (musicTimerStep s).musicTimer ∧
      t.ticksPerMusicTimer = s.ticksPerMusicTimer

/-- R166, R167, R191, R90: the duration counter of an active channel counts down; reaching 0 raises
`SEQ_REQ(c)`, and the host is served in the state the tick has produced so far; `IDLE` is raised and served
in the same way. In the service the host's words are executed in order until it returns: each of the six
commands that R90 allows as its own rule says, a reserved word as `NOP` (DEDUCED, log entry 8), and `RESET`,
`MODE`, `SETVOL` or `PULL` is refused (U13; that the refusal falls at that word is log entry 5). That what
the host does is the head of a list of answers, and nothing once the list is used up, is the model's choice
among the forms of R181 (d) (log entry 5); the record of events is log entry 6. -/
def Obligations.DurationExpiryRequestsSequencer : Prop :=
  (∀ (e : Event) (s t : State), t = { s with events := s.events ++ [⟨s.ticks, e⟩] } →
    (s.answers = [] → serve e s = .next t) ∧
    ∀ a as, s.answers = a :: as → serve e s = serviceWords a { t with answers := as }) ∧
  (∀ s : State, (∀ c, s.reg (chanSlot c) .timeLeft = 0) → idleStep true s = serve .idle s) ∧
  (∀ s : State, serviceWords [] s = .next s) ∧
  (∀ (w : CmdWord) (ws : List CmdWord) (s : State),
    (∀ e, decode w = .error e → serviceWords (w :: ws) s = serviceWords ws s) ∧
    ∀ i, decode w = .ok i →
      (i ≠ .reset → (∀ p, i ≠ .mode p) → (∀ v, i ≠ .setvol v) → (∀ n, i ≠ .pull n) →
        ∃ t, exec i s = .next t ∧ serviceWords (w :: ws) s = serviceWords ws t) ∧
      (i = .reset ∨ (∃ p, i = .mode p) ∨ (∃ v, i = .setvol v) ∨ (∃ n, i = .pull n) →
        serviceWords (w :: ws) s = .refused .serviceViolation)) ∧
  ∀ (c : Fin 4) (s : State),
    (2 ≤ (s.reg (chanSlot c) .timeLeft).toNat →
      ∃ t, durationStep c s = .next t ∧
        (t.reg (chanSlot c) .timeLeft).toNat = (s.reg (chanSlot c) .timeLeft).toNat - 1 ∧
        ChangesOnly (chanSlot c) [.timeLeft] s t) ∧
    ((s.reg (chanSlot c) .timeLeft).toNat = 1 →
      ∃ t, t.reg (chanSlot c) .timeLeft = 0 ∧
        (∀ sl r, sl ≠ chanSlot c ∨ r ≠ .timeLeft → t.reg sl r = s.reg sl r) ∧
        SameOscillators s t ∧ SameMusicTimer s t ∧ SameSetup s t ∧ SameSound s t ∧
        t.port = s.port ∧ t.results = s.results ∧
        t.events = s.events ++ [⟨s.ticks, .seqReq c⟩] ∧
        (s.answers = [] → t.answers = [] ∧ durationStep c s = .next t) ∧
        ∀ a as, s.answers = a :: as → t.answers = as ∧ durationStep c s = serviceWords a t)

/-- R194, R167: with a host that does nothing at service points, a tick raises `SEQ_REQ` for the channels
whose duration expires in it, in channel order, and then `IDLE` iff it began with an active channel and
none is left. -/
def Obligations.TickRaisesEventsInOrder : Prop :=
  ∀ s t : State, s.answers = [] → tick s = .next t →
    t.events = s.events ++
      (((List.finRange 4).filter fun c => s.reg (chanSlot c) .timeLeft == 1).map
        fun c => ⟨s.ticks, .seqReq c⟩) ++
      (if (∃ c, active s c = true) ∧ ∀ c, (s.reg (chanSlot c) .timeLeft).toNat ≤ 1
        then [⟨s.ticks, .idle⟩] else [])

/-! ## The clock divider and `PULL` -/

/-- R162, R44: a `PULL n` that completes has appended exactly `n` frames, each of two equal samples, and
has kept the configuration, the profile, the volume table and the words the host has yet to present. One
frame exactly, which with `PullIsBatchIndependent` fixes every `PULL n`: with a whole frame left before the
tick, `PULL 1` is a frame step, then `NEXT_TICK` less `ONE`, then, only where less than one whole frame is
left, a tick and the reload; with less than one left it is a tick, the reload and again `PULL 1`. The reload
adds `TICK_STEP`. (Where the sum does not fit the 32 bits of R18 the register holds a free value, of which
the model keeps only that it is at least `ONE`: DESIGN CHOICE, log entry 3.) -/
def Obligations.PullEmitsExactlyN : Prop :=
  (∀ s : State,
    (65536 ≤ s.nextTick.toNat →
      exec (.pull 1) s = andThen (frameStep s) fun t =>
        if t.nextTick.toNat - 65536 < 65536 then
          andThen (tick { t with nextTick := t.nextTick - 65536 }) fun u => .next (reload u)
        else .next { t with nextTick := t.nextTick - 65536 }) ∧
    (s.nextTick.toNat < 65536 →
      exec (.pull 1) s = andThen (tick s) fun u => exec (.pull 1) (reload u)) ∧
    (s.nextTick.toNat + tickStep s.cfg < 2 ^ 32 →
      reload s = { s with nextTick := s.nextTick + BitVec.ofNat 32 (tickStep s.cfg) }) ∧
    (2 ^ 32 ≤ s.nextTick.toNat + tickStep s.cfg →
      ∃ v : BitVec 32, 65536 ≤ v.toNat ∧ reload s = { s with nextTick := v })) ∧
  ∀ (n : BitVec 24) (s t : State), exec (.pull n) s = .next t →
    (∃ fs : List Frame, fs.length = n.toNat ∧ (∀ f ∈ fs, f.left = f.right) ∧ t.out = s.out ++ fs) ∧
      SameSetup s t ∧ t.port = s.port

/-- R162 corner case 1: `PULL 0` does nothing at all, even when a tick is due. R211, U8: a configuration
with `TICK_STEP = 0`, on which every `PULL` would raise `ClockStuck` (R161), is refused when its instance is
created, so that no instance ever runs with it (of the two ways that U8 gives, the model takes this one, log
entry 10). -/
def Obligations.PullZeroAndStuckClock : Prop :=
  (∀ s : State, exec (.pull 0) s = .next s) ∧
    ∀ cfg : Config, tickStep cfg = 0 → State.create cfg = .refused .illFormedInstance

/-- R162 corner case 6, batch-size independence: `PULL a` and then `PULL b` is `PULL (a + b)`, state for
state, event for event, and stop for stop, from every state of every instance. -/
def Obligations.PullIsBatchIndependent : Prop :=
  ∀ (a b : Nat) (s : State), a + b < 2 ^ 24 →
    andThen (exec (.pull (BitVec.ofNat 24 a)) s) (exec (.pull (BitVec.ofNat 24 b))) =
      exec (.pull (BitVec.ofNat 24 (a + b))) s

/-- R216: `PULL n` completes for every `n`, and emits `n` frames, in a state that meets the host's duties: a
volume table is set (R212), every channel's engines, running envelopes and pending note-offs among them, are
on well-formed curves that end in a park pair (R224), and the host's answers keep to R90 and leave the
engines so. The state after it meets them again. (That the answers are a list is log entry 5; a reserved
word among them acts as `NOP`, log entry 8.) -/
def Obligations.PullCompletesWhenReady : Prop :=
  ∀ (n : BitVec 24) (s : State), PullReady s →
    ∃ t, exec (.pull n) s = .next t ∧ t.out.length = s.out.length + n.toNat ∧ PullReady t

/-- R183: a `PULL` on a freshly reset instance with no channel written produces silence, whatever the
configuration, and runs no service call. -/
def Obligations.PullAfterResetIsSilent : Prop :=
  ∀ (n : BitVec 24) (inst : Instance),
    ∃ t, exec (.pull n) (State.resetOf inst) = .next t ∧
      t.out = List.replicate n.toNat ⟨0, 0⟩ ∧ t.level = 0 ∧ t.events = [] ∧ ∀ sl r, t.reg sl r = 0

/-! ## Invariants that every step keeps -/

/-- R163: every step keeps the divider's exact relation of frames, ticks and position, and, where a tick
is at least one frame long, the whole frame ahead that makes the tick count of R163 exact (log entry 13).
It is said of instances whose reloads fit the 32 bits of R18 (log entry 3). -/
def Obligations.StepKeepsClockExact : Prop :=
  ∀ s t : State, tickFits s.cfg → ClockInv s → step s = .next t →
    ClockInv t ∧ (one ≤ tickStep s.cfg → TickAhead s → TickAhead t)

/-- R16, R141: every step keeps every countdown at 0 or above. -/
def Obligations.StepKeepsCountdownsNonneg : Prop :=
  ∀ s t : State, OscInv s → step s = .next t → OscInv t

/-- R17, R44: every step keeps `LEVEL` equal to the last frame emitted and every frame's samples equal. -/
def Obligations.StepKeepsLevelLastFrame : Prop :=
  ∀ s t : State, OutputInv s → step s = .next t → OutputInv t

/-- R125, R221: with a feedback into bit 15 in both masks and a nonzero seed, no step locks the noise
register up. -/
def Obligations.StepKeepsNoiseAlive : Prop :=
  ∀ s t : State, NoiseInv s → step s = .next t → NoiseInv t

/-- R4, R211, R210, R20: an instance whose configuration violates a constraint of the table of R4 is
refused when it is created, and one that violates none starts in the reset state; no step changes the configuration; and
the volume table stays unset or a value of `VOLTAB_FN`. -/
def Obligations.StepKeepsConfigurationAndTable : Prop :=
  (∀ (cfg : Config) (violates : Prop),
    (violates ↔
      cfg.sampleRate = 0 ∨ cfg.tickHz = 0 ∨ cfg.sampleRate * 65536 / cfg.tickHz = 0 ∨
        cfg.updateStepSpk = 0 ∨ cfg.updateStepTg = 0 ∨ 2 ^ 31 ≤ cfg.updateStepSpk * 65535 ∨
        2 ^ 31 ≤ cfg.updateStepTg * 2046 ∨ cfg.decayPresetSpk = cfg.decayPresetTg ∨
        cfg.fbWhite = cfg.fbPeriodic ∨ maskOnes cfg.fbWhite ≤ maskOnes cfg.fbPeriodic ∨
        98304 < cfg.hull.length ∨
        (∃ (v : Fin 256) (i j : Fin 16), i < j ∧ (cfg.volTabFn[v])[i] < (cfg.volTabFn[v])[j]) ∨
        (∃ v : Fin 256, (cfg.volTabFn[v])[15] ≠ 0) ∨
        (¬ ∃ p q : Nat, 0 < q ∧ ∀ v : Fin 256,
          ((cfg.volTabFn[v])[0]).toNat = min 65535 (p * v.val / q))) →
    (violates → State.create cfg = .refused .illFormedInstance) ∧
    (¬ violates → ∃ inst : Instance, inst.cfg = cfg ∧
      State.create cfg = .next (State.resetOf inst))) ∧
  ∀ s t : State, step s = .next t → t.inst = s.inst ∧ (TableInv s → TableInv t)

/-- The reset state of every instance meets the invariants; so does the state after reset that the model
names (log entry 2), but for the noise register's: a mask of `EX1` lacks bit 16, and with that mask the
invariant does not hold. -/
def Obligations.ResetMeetsInvariants : Prop :=
  (∀ inst : Instance, ClockInv (State.resetOf inst) ∧ TickAhead (State.resetOf inst) ∧
      OscInv (State.resetOf inst) ∧ OutputInv (State.resetOf inst) ∧ TableInv (State.resetOf inst) ∧
      (inst.cfg.fbWhite.getLsbD 16 = true → inst.cfg.fbPeriodic.getLsbD 16 = true →
        inst.cfg.ngPreset ≠ 0 → NoiseInv (State.resetOf inst))) ∧
    tickFits State.reset.cfg ∧ ClockInv State.reset ∧ ¬ NoiseInv State.reset

/-! ## What can stop a command -/

/-- R90: no command but `PULL` can fail: every one of the nine answers a next state, in every state. -/
def Obligations.OnlyPullCanStop : Prop :=
  ∀ (i : Instr) (s : State), (∀ n, i ≠ .pull n) → ∃ t, exec i s = .next t

/-- R190, R196, R90: no command of any instance raises `ClockStuck` or `PeriodRange`, since every instance's
configuration is well formed, and none raises `VolTabUnset` once a table is set. A host whose answers hold
no `PULL`, `RESET`, `MODE` or `SETVOL`, but only the six commands of R90 and reserved words (which act as
`NOP`, log entry 8), is never refused (that a violation is a refusal is log entry 5). -/
def Obligations.StopsAreExcluded : Prop :=
  ∀ (i : Instr) (s : State),
    exec i s ≠ .fault .clockStuck ∧ exec i s ≠ .fault .periodRange ∧
    (s.volTab ≠ none → exec i s ≠ .fault .volTabUnset) ∧
    (hostObeys s = true → ∀ r, exec i s ≠ .refused r)

/-- R11, R12: without a host at its service points a `PULL` writes neither the sentinel slot nor any of
the registers the block never writes, and it leaves the prescaler and the results alone. -/
def Obligations.PullKeepsHostStorage : Prop :=
  ∀ (n : BitVec 24) (s t : State), s.answers = [] → exec (.pull n) s = .next t →
    (∀ r, t.reg 4 r = s.reg 4 r) ∧ t.ticksPerMusicTimer = s.ticksPerMusicTimer ∧
      t.results = s.results ∧ t.answers = [] ∧
      ∀ sl, ∀ r ∈ [Reg.nextCmd, .freqDelta, .tempo, .interNotePause, .transpose, .hullCurve,
          .freqmodTable, .freqmodIncr, .freqmodMult, .freqmodModulo, .scratch0, .scratch1, .scratch2,
          .scratch3],
        t.reg sl r = s.reg sl r
end

