-- ==== Sys2Proof/Laws/State.lean ====
section
/-! SUPPORT. What each update of the state leaves in each field: one lemma a field, true by `rfl`. -/

namespace Sys2Proof.Machine

open Sys2Proof

/-! ### The configuration -/

@[simp] theorem State.cfg_def (s : State) : s.cfg = s.inst.cfg := rfl

/-! ### `State.setReg` -/

@[simp] theorem State.setReg_inst (s : State) (sl : Fin 5) (r : Reg) (v : Word) :
    (s.setReg sl r v).inst = s.inst := rfl

@[simp] theorem State.setReg_ch (s : State) (sl : Fin 5) (r : Reg) (v : Word) :
    (s.setReg sl r v).ch = s.ch.set sl (s.ch[sl].set r.index v) := rfl

@[simp] theorem State.setReg_rng (s : State) (sl : Fin 5) (r : Reg) (v : Word) :
    (s.setReg sl r v).rng = s.rng := rfl

@[simp] theorem State.setReg_phase (s : State) (sl : Fin 5) (r : Reg) (v : Word) :
    (s.setReg sl r v).phase = s.phase := rfl

@[simp] theorem State.setReg_timerCount (s : State) (sl : Fin 5) (r : Reg) (v : Word) :
    (s.setReg sl r v).timerCount = s.timerCount := rfl

@[simp] theorem State.setReg_level (s : State) (sl : Fin 5) (r : Reg) (v : Word) :
    (s.setReg sl r v).level = s.level := rfl

@[simp] theorem State.setReg_nextTick (s : State) (sl : Fin 5) (r : Reg) (v : Word) :
    (s.setReg sl r v).nextTick = s.nextTick := rfl

@[simp] theorem State.setReg_profile (s : State) (sl : Fin 5) (r : Reg) (v : Word) :
    (s.setReg sl r v).profile = s.profile := rfl

@[simp] theorem State.setReg_volTab (s : State) (sl : Fin 5) (r : Reg) (v : Word) :
    (s.setReg sl r v).volTab = s.volTab := rfl

@[simp] theorem State.setReg_musicTimer (s : State) (sl : Fin 5) (r : Reg) (v : Word) :
    (s.setReg sl r v).musicTimer = s.musicTimer := rfl

@[simp] theorem State.setReg_musicCtr (s : State) (sl : Fin 5) (r : Reg) (v : Word) :
    (s.setReg sl r v).musicCtr = s.musicCtr := rfl

@[simp] theorem State.setReg_ticksPerMusicTimer (s : State) (sl : Fin 5) (r : Reg) (v : Word) :
    (s.setReg sl r v).ticksPerMusicTimer = s.ticksPerMusicTimer := rfl

@[simp] theorem State.setReg_out (s : State) (sl : Fin 5) (r : Reg) (v : Word) :
    (s.setReg sl r v).out = s.out := rfl

@[simp] theorem State.setReg_port (s : State) (sl : Fin 5) (r : Reg) (v : Word) :
    (s.setReg sl r v).port = s.port := rfl

@[simp] theorem State.setReg_answers (s : State) (sl : Fin 5) (r : Reg) (v : Word) :
    (s.setReg sl r v).answers = s.answers := rfl

@[simp] theorem State.setReg_results (s : State) (sl : Fin 5) (r : Reg) (v : Word) :
    (s.setReg sl r v).results = s.results := rfl

@[simp] theorem State.setReg_events (s : State) (sl : Fin 5) (r : Reg) (v : Word) :
    (s.setReg sl r v).events = s.events := rfl

@[simp] theorem State.setReg_ticks (s : State) (sl : Fin 5) (r : Reg) (v : Word) :
    (s.setReg sl r v).ticks = s.ticks := rfl

/-! ### `State.clearSlot` -/

@[simp] theorem State.clearSlot_inst (s : State) (sl : Fin 5) :
    (s.clearSlot sl).inst = s.inst := rfl

@[simp] theorem State.clearSlot_ch (s : State) (sl : Fin 5) :
    (s.clearSlot sl).ch = s.ch.set sl (Vector.replicate 23 0) := rfl

@[simp] theorem State.clearSlot_rng (s : State) (sl : Fin 5) :
    (s.clearSlot sl).rng = s.rng := rfl

@[simp] theorem State.clearSlot_phase (s : State) (sl : Fin 5) :
    (s.clearSlot sl).phase = s.phase := rfl

@[simp] theorem State.clearSlot_timerCount (s : State) (sl : Fin 5) :
    (s.clearSlot sl).timerCount = s.timerCount := rfl

@[simp] theorem State.clearSlot_level (s : State) (sl : Fin 5) :
    (s.clearSlot sl).level = s.level := rfl

@[simp] theorem State.clearSlot_nextTick (s : State) (sl : Fin 5) :
    (s.clearSlot sl).nextTick = s.nextTick := rfl

@[simp] theorem State.clearSlot_profile (s : State) (sl : Fin 5) :
    (s.clearSlot sl).profile = s.profile := rfl

@[simp] theorem State.clearSlot_volTab (s : State) (sl : Fin 5) :
    (s.clearSlot sl).volTab = s.volTab := rfl

@[simp] theorem State.clearSlot_musicTimer (s : State) (sl : Fin 5) :
    (s.clearSlot sl).musicTimer = s.musicTimer := rfl

@[simp] theorem State.clearSlot_musicCtr (s : State) (sl : Fin 5) :
    (s.clearSlot sl).musicCtr = s.musicCtr := rfl

@[simp] theorem State.clearSlot_ticksPerMusicTimer (s : State) (sl : Fin 5) :
    (s.clearSlot sl).ticksPerMusicTimer = s.ticksPerMusicTimer := rfl

@[simp] theorem State.clearSlot_out (s : State) (sl : Fin 5) :
    (s.clearSlot sl).out = s.out := rfl

@[simp] theorem State.clearSlot_port (s : State) (sl : Fin 5) :
    (s.clearSlot sl).port = s.port := rfl

@[simp] theorem State.clearSlot_answers (s : State) (sl : Fin 5) :
    (s.clearSlot sl).answers = s.answers := rfl

@[simp] theorem State.clearSlot_results (s : State) (sl : Fin 5) :
    (s.clearSlot sl).results = s.results := rfl

@[simp] theorem State.clearSlot_events (s : State) (sl : Fin 5) :
    (s.clearSlot sl).events = s.events := rfl

@[simp] theorem State.clearSlot_ticks (s : State) (sl : Fin 5) :
    (s.clearSlot sl).ticks = s.ticks := rfl

/-! ### `State.emit` -/

@[simp] theorem State.emit_inst (s : State) (l r : Word) :
    (s.emit l r).inst = s.inst := rfl

@[simp] theorem State.emit_ch (s : State) (l r : Word) :
    (s.emit l r).ch = s.ch := rfl

@[simp] theorem State.emit_rng (s : State) (l r : Word) :
    (s.emit l r).rng = s.rng := rfl

@[simp] theorem State.emit_phase (s : State) (l r : Word) :
    (s.emit l r).phase = s.phase := rfl

@[simp] theorem State.emit_timerCount (s : State) (l r : Word) :
    (s.emit l r).timerCount = s.timerCount := rfl

@[simp] theorem State.emit_level (s : State) (l r : Word) :
    (s.emit l r).level = s.level := rfl

@[simp] theorem State.emit_nextTick (s : State) (l r : Word) :
    (s.emit l r).nextTick = s.nextTick := rfl

@[simp] theorem State.emit_profile (s : State) (l r : Word) :
    (s.emit l r).profile = s.profile := rfl

@[simp] theorem State.emit_volTab (s : State) (l r : Word) :
    (s.emit l r).volTab = s.volTab := rfl

@[simp] theorem State.emit_musicTimer (s : State) (l r : Word) :
    (s.emit l r).musicTimer = s.musicTimer := rfl

@[simp] theorem State.emit_musicCtr (s : State) (l r : Word) :
    (s.emit l r).musicCtr = s.musicCtr := rfl

@[simp] theorem State.emit_ticksPerMusicTimer (s : State) (l r : Word) :
    (s.emit l r).ticksPerMusicTimer = s.ticksPerMusicTimer := rfl

@[simp] theorem State.emit_out (s : State) (l r : Word) :
    (s.emit l r).out = s.out ++ [⟨l, r⟩] := rfl

@[simp] theorem State.emit_port (s : State) (l r : Word) :
    (s.emit l r).port = s.port := rfl

@[simp] theorem State.emit_answers (s : State) (l r : Word) :
    (s.emit l r).answers = s.answers := rfl

@[simp] theorem State.emit_results (s : State) (l r : Word) :
    (s.emit l r).results = s.results := rfl

@[simp] theorem State.emit_events (s : State) (l r : Word) :
    (s.emit l r).events = s.events := rfl

@[simp] theorem State.emit_ticks (s : State) (l r : Word) :
    (s.emit l r).ticks = s.ticks := rfl

/-! ### `State.returns` -/

@[simp] theorem State.returns_inst (s : State) (r : Result) :
    (s.returns r).inst = s.inst := rfl

@[simp] theorem State.returns_ch (s : State) (r : Result) :
    (s.returns r).ch = s.ch := rfl

@[simp] theorem State.returns_rng (s : State) (r : Result) :
    (s.returns r).rng = s.rng := rfl

@[simp] theorem State.returns_phase (s : State) (r : Result) :
    (s.returns r).phase = s.phase := rfl

@[simp] theorem State.returns_timerCount (s : State) (r : Result) :
    (s.returns r).timerCount = s.timerCount := rfl

@[simp] theorem State.returns_level (s : State) (r : Result) :
    (s.returns r).level = s.level := rfl

@[simp] theorem State.returns_nextTick (s : State) (r : Result) :
    (s.returns r).nextTick = s.nextTick := rfl

@[simp] theorem State.returns_profile (s : State) (r : Result) :
    (s.returns r).profile = s.profile := rfl

@[simp] theorem State.returns_volTab (s : State) (r : Result) :
    (s.returns r).volTab = s.volTab := rfl

@[simp] theorem State.returns_musicTimer (s : State) (r : Result) :
    (s.returns r).musicTimer = s.musicTimer := rfl

@[simp] theorem State.returns_musicCtr (s : State) (r : Result) :
    (s.returns r).musicCtr = s.musicCtr := rfl

@[simp] theorem State.returns_ticksPerMusicTimer (s : State) (r : Result) :
    (s.returns r).ticksPerMusicTimer = s.ticksPerMusicTimer := rfl

@[simp] theorem State.returns_out (s : State) (r : Result) :
    (s.returns r).out = s.out := rfl

@[simp] theorem State.returns_port (s : State) (r : Result) :
    (s.returns r).port = s.port := rfl

@[simp] theorem State.returns_answers (s : State) (r : Result) :
    (s.returns r).answers = s.answers := rfl

@[simp] theorem State.returns_results (s : State) (r : Result) :
    (s.returns r).results = s.results ++ [r] := rfl

@[simp] theorem State.returns_events (s : State) (r : Result) :
    (s.returns r).events = s.events := rfl

@[simp] theorem State.returns_ticks (s : State) (r : Result) :
    (s.returns r).ticks = s.ticks := rfl

/-! ### `State.present` -/

@[simp] theorem State.present_inst (s : State) (w : CmdWord) :
    (s.present w).inst = s.inst := rfl

@[simp] theorem State.present_ch (s : State) (w : CmdWord) :
    (s.present w).ch = s.ch := rfl

@[simp] theorem State.present_rng (s : State) (w : CmdWord) :
    (s.present w).rng = s.rng := rfl

@[simp] theorem State.present_phase (s : State) (w : CmdWord) :
    (s.present w).phase = s.phase := rfl

@[simp] theorem State.present_timerCount (s : State) (w : CmdWord) :
    (s.present w).timerCount = s.timerCount := rfl

@[simp] theorem State.present_level (s : State) (w : CmdWord) :
    (s.present w).level = s.level := rfl

@[simp] theorem State.present_nextTick (s : State) (w : CmdWord) :
    (s.present w).nextTick = s.nextTick := rfl

@[simp] theorem State.present_profile (s : State) (w : CmdWord) :
    (s.present w).profile = s.profile := rfl

@[simp] theorem State.present_volTab (s : State) (w : CmdWord) :
    (s.present w).volTab = s.volTab := rfl

@[simp] theorem State.present_musicTimer (s : State) (w : CmdWord) :
    (s.present w).musicTimer = s.musicTimer := rfl

@[simp] theorem State.present_musicCtr (s : State) (w : CmdWord) :
    (s.present w).musicCtr = s.musicCtr := rfl

@[simp] theorem State.present_ticksPerMusicTimer (s : State) (w : CmdWord) :
    (s.present w).ticksPerMusicTimer = s.ticksPerMusicTimer := rfl

@[simp] theorem State.present_out (s : State) (w : CmdWord) :
    (s.present w).out = s.out := rfl

@[simp] theorem State.present_port (s : State) (w : CmdWord) :
    (s.present w).port = w :: s.port := rfl

@[simp] theorem State.present_answers (s : State) (w : CmdWord) :
    (s.present w).answers = s.answers := rfl

@[simp] theorem State.present_results (s : State) (w : CmdWord) :
    (s.present w).results = s.results := rfl

@[simp] theorem State.present_events (s : State) (w : CmdWord) :
    (s.present w).events = s.events := rfl

@[simp] theorem State.present_ticks (s : State) (w : CmdWord) :
    (s.present w).ticks = s.ticks := rfl

/-! ### `State.togglePhase` -/

@[simp] theorem State.togglePhase_inst (s : State) (c : Fin 4) :
    (s.togglePhase c).inst = s.inst := rfl

@[simp] theorem State.togglePhase_ch (s : State) (c : Fin 4) :
    (s.togglePhase c).ch = s.ch := rfl

@[simp] theorem State.togglePhase_rng (s : State) (c : Fin 4) :
    (s.togglePhase c).rng = s.rng := rfl

@[simp] theorem State.togglePhase_phase (s : State) (c : Fin 4) :
    (s.togglePhase c).phase = s.phase.set c (!s.phase[c]) := rfl

@[simp] theorem State.togglePhase_timerCount (s : State) (c : Fin 4) :
    (s.togglePhase c).timerCount = s.timerCount := rfl

@[simp] theorem State.togglePhase_level (s : State) (c : Fin 4) :
    (s.togglePhase c).level = s.level := rfl

@[simp] theorem State.togglePhase_nextTick (s : State) (c : Fin 4) :
    (s.togglePhase c).nextTick = s.nextTick := rfl

@[simp] theorem State.togglePhase_profile (s : State) (c : Fin 4) :
    (s.togglePhase c).profile = s.profile := rfl

@[simp] theorem State.togglePhase_volTab (s : State) (c : Fin 4) :
    (s.togglePhase c).volTab = s.volTab := rfl

@[simp] theorem State.togglePhase_musicTimer (s : State) (c : Fin 4) :
    (s.togglePhase c).musicTimer = s.musicTimer := rfl

@[simp] theorem State.togglePhase_musicCtr (s : State) (c : Fin 4) :
    (s.togglePhase c).musicCtr = s.musicCtr := rfl

@[simp] theorem State.togglePhase_ticksPerMusicTimer (s : State) (c : Fin 4) :
    (s.togglePhase c).ticksPerMusicTimer = s.ticksPerMusicTimer := rfl

@[simp] theorem State.togglePhase_out (s : State) (c : Fin 4) :
    (s.togglePhase c).out = s.out := rfl

@[simp] theorem State.togglePhase_port (s : State) (c : Fin 4) :
    (s.togglePhase c).port = s.port := rfl

@[simp] theorem State.togglePhase_answers (s : State) (c : Fin 4) :
    (s.togglePhase c).answers = s.answers := rfl

@[simp] theorem State.togglePhase_results (s : State) (c : Fin 4) :
    (s.togglePhase c).results = s.results := rfl

@[simp] theorem State.togglePhase_events (s : State) (c : Fin 4) :
    (s.togglePhase c).events = s.events := rfl

@[simp] theorem State.togglePhase_ticks (s : State) (c : Fin 4) :
    (s.togglePhase c).ticks = s.ticks := rfl

/-! ### `State.copyOsc` -/

@[simp] theorem State.copyOsc_inst (s : State) (i j : Fin 4) :
    (s.copyOsc i j).inst = s.inst := rfl

@[simp] theorem State.copyOsc_ch (s : State) (i j : Fin 4) :
    (s.copyOsc i j).ch = s.ch := rfl

@[simp] theorem State.copyOsc_rng (s : State) (i j : Fin 4) :
    (s.copyOsc i j).rng = s.rng := rfl

@[simp] theorem State.copyOsc_phase (s : State) (i j : Fin 4) :
    (s.copyOsc i j).phase = s.phase.set i s.phase[j] := rfl

@[simp] theorem State.copyOsc_timerCount (s : State) (i j : Fin 4) :
    (s.copyOsc i j).timerCount = s.timerCount.set i s.timerCount[j] := rfl

@[simp] theorem State.copyOsc_level (s : State) (i j : Fin 4) :
    (s.copyOsc i j).level = s.level := rfl

@[simp] theorem State.copyOsc_nextTick (s : State) (i j : Fin 4) :
    (s.copyOsc i j).nextTick = s.nextTick := rfl

@[simp] theorem State.copyOsc_profile (s : State) (i j : Fin 4) :
    (s.copyOsc i j).profile = s.profile := rfl

@[simp] theorem State.copyOsc_volTab (s : State) (i j : Fin 4) :
    (s.copyOsc i j).volTab = s.volTab := rfl

@[simp] theorem State.copyOsc_musicTimer (s : State) (i j : Fin 4) :
    (s.copyOsc i j).musicTimer = s.musicTimer := rfl

@[simp] theorem State.copyOsc_musicCtr (s : State) (i j : Fin 4) :
    (s.copyOsc i j).musicCtr = s.musicCtr := rfl

@[simp] theorem State.copyOsc_ticksPerMusicTimer (s : State) (i j : Fin 4) :
    (s.copyOsc i j).ticksPerMusicTimer = s.ticksPerMusicTimer := rfl

@[simp] theorem State.copyOsc_out (s : State) (i j : Fin 4) :
    (s.copyOsc i j).out = s.out := rfl

@[simp] theorem State.copyOsc_port (s : State) (i j : Fin 4) :
    (s.copyOsc i j).port = s.port := rfl

@[simp] theorem State.copyOsc_answers (s : State) (i j : Fin 4) :
    (s.copyOsc i j).answers = s.answers := rfl

@[simp] theorem State.copyOsc_results (s : State) (i j : Fin 4) :
    (s.copyOsc i j).results = s.results := rfl

@[simp] theorem State.copyOsc_events (s : State) (i j : Fin 4) :
    (s.copyOsc i j).events = s.events := rfl

@[simp] theorem State.copyOsc_ticks (s : State) (i j : Fin 4) :
    (s.copyOsc i j).ticks = s.ticks := rfl

/-! ### `State.clearOsc` -/

@[simp] theorem State.clearOsc_inst (s : State) :
    (s.clearOsc).inst = s.inst := rfl

@[simp] theorem State.clearOsc_ch (s : State) :
    (s.clearOsc).ch = s.ch := rfl

@[simp] theorem State.clearOsc_rng (s : State) :
    (s.clearOsc).rng = s.rng := rfl

@[simp] theorem State.clearOsc_phase (s : State) :
    (s.clearOsc).phase = Vector.replicate 4 false := rfl

@[simp] theorem State.clearOsc_timerCount (s : State) :
    (s.clearOsc).timerCount = Vector.replicate 4 0 := rfl

@[simp] theorem State.clearOsc_level (s : State) :
    (s.clearOsc).level = s.level := rfl

@[simp] theorem State.clearOsc_nextTick (s : State) :
    (s.clearOsc).nextTick = s.nextTick := rfl

@[simp] theorem State.clearOsc_profile (s : State) :
    (s.clearOsc).profile = s.profile := rfl

@[simp] theorem State.clearOsc_volTab (s : State) :
    (s.clearOsc).volTab = s.volTab := rfl

@[simp] theorem State.clearOsc_musicTimer (s : State) :
    (s.clearOsc).musicTimer = s.musicTimer := rfl

@[simp] theorem State.clearOsc_musicCtr (s : State) :
    (s.clearOsc).musicCtr = s.musicCtr := rfl

@[simp] theorem State.clearOsc_ticksPerMusicTimer (s : State) :
    (s.clearOsc).ticksPerMusicTimer = s.ticksPerMusicTimer := rfl

@[simp] theorem State.clearOsc_out (s : State) :
    (s.clearOsc).out = s.out := rfl

@[simp] theorem State.clearOsc_port (s : State) :
    (s.clearOsc).port = s.port := rfl

@[simp] theorem State.clearOsc_answers (s : State) :
    (s.clearOsc).answers = s.answers := rfl

@[simp] theorem State.clearOsc_results (s : State) :
    (s.clearOsc).results = s.results := rfl

@[simp] theorem State.clearOsc_events (s : State) :
    (s.clearOsc).events = s.events := rfl

@[simp] theorem State.clearOsc_ticks (s : State) :
    (s.clearOsc).ticks = s.ticks := rfl

/-! ### `State.setTimer` -/

@[simp] theorem State.setTimer_inst (s : State) (c : Fin 4) (t : Int) :
    (s.setTimer c t).inst = s.inst := rfl

@[simp] theorem State.setTimer_ch (s : State) (c : Fin 4) (t : Int) :
    (s.setTimer c t).ch = s.ch := rfl

@[simp] theorem State.setTimer_rng (s : State) (c : Fin 4) (t : Int) :
    (s.setTimer c t).rng = s.rng := rfl

@[simp] theorem State.setTimer_phase (s : State) (c : Fin 4) (t : Int) :
    (s.setTimer c t).phase = s.phase := rfl

@[simp] theorem State.setTimer_timerCount (s : State) (c : Fin 4) (t : Int) :
    (s.setTimer c t).timerCount = s.timerCount.set c (BitVec.ofInt 32 t) := rfl

@[simp] theorem State.setTimer_level (s : State) (c : Fin 4) (t : Int) :
    (s.setTimer c t).level = s.level := rfl

@[simp] theorem State.setTimer_nextTick (s : State) (c : Fin 4) (t : Int) :
    (s.setTimer c t).nextTick = s.nextTick := rfl

@[simp] theorem State.setTimer_profile (s : State) (c : Fin 4) (t : Int) :
    (s.setTimer c t).profile = s.profile := rfl

@[simp] theorem State.setTimer_volTab (s : State) (c : Fin 4) (t : Int) :
    (s.setTimer c t).volTab = s.volTab := rfl

@[simp] theorem State.setTimer_musicTimer (s : State) (c : Fin 4) (t : Int) :
    (s.setTimer c t).musicTimer = s.musicTimer := rfl

@[simp] theorem State.setTimer_musicCtr (s : State) (c : Fin 4) (t : Int) :
    (s.setTimer c t).musicCtr = s.musicCtr := rfl

@[simp] theorem State.setTimer_ticksPerMusicTimer (s : State) (c : Fin 4) (t : Int) :
    (s.setTimer c t).ticksPerMusicTimer = s.ticksPerMusicTimer := rfl

@[simp] theorem State.setTimer_out (s : State) (c : Fin 4) (t : Int) :
    (s.setTimer c t).out = s.out := rfl

@[simp] theorem State.setTimer_port (s : State) (c : Fin 4) (t : Int) :
    (s.setTimer c t).port = s.port := rfl

@[simp] theorem State.setTimer_answers (s : State) (c : Fin 4) (t : Int) :
    (s.setTimer c t).answers = s.answers := rfl

@[simp] theorem State.setTimer_results (s : State) (c : Fin 4) (t : Int) :
    (s.setTimer c t).results = s.results := rfl

@[simp] theorem State.setTimer_events (s : State) (c : Fin 4) (t : Int) :
    (s.setTimer c t).events = s.events := rfl

@[simp] theorem State.setTimer_ticks (s : State) (c : Fin 4) (t : Int) :
    (s.setTimer c t).ticks = s.ticks := rfl


/-! ### `State.setNextTick` -/

@[simp] theorem State.setNextTick_inst (s : State) (v : BitVec 32) :
    (s.setNextTick v).inst = s.inst := rfl

@[simp] theorem State.setNextTick_ch (s : State) (v : BitVec 32) :
    (s.setNextTick v).ch = s.ch := rfl

@[simp] theorem State.setNextTick_rng (s : State) (v : BitVec 32) :
    (s.setNextTick v).rng = s.rng := rfl

@[simp] theorem State.setNextTick_phase (s : State) (v : BitVec 32) :
    (s.setNextTick v).phase = s.phase := rfl

@[simp] theorem State.setNextTick_timerCount (s : State) (v : BitVec 32) :
    (s.setNextTick v).timerCount = s.timerCount := rfl

@[simp] theorem State.setNextTick_level (s : State) (v : BitVec 32) :
    (s.setNextTick v).level = s.level := rfl

@[simp] theorem State.setNextTick_nextTick (s : State) (v : BitVec 32) :
    (s.setNextTick v).nextTick = v := rfl

@[simp] theorem State.setNextTick_profile (s : State) (v : BitVec 32) :
    (s.setNextTick v).profile = s.profile := rfl

@[simp] theorem State.setNextTick_volTab (s : State) (v : BitVec 32) :
    (s.setNextTick v).volTab = s.volTab := rfl

@[simp] theorem State.setNextTick_musicTimer (s : State) (v : BitVec 32) :
    (s.setNextTick v).musicTimer = s.musicTimer := rfl

@[simp] theorem State.setNextTick_musicCtr (s : State) (v : BitVec 32) :
    (s.setNextTick v).musicCtr = s.musicCtr := rfl

@[simp] theorem State.setNextTick_ticksPerMusicTimer (s : State) (v : BitVec 32) :
    (s.setNextTick v).ticksPerMusicTimer = s.ticksPerMusicTimer := rfl

@[simp] theorem State.setNextTick_out (s : State) (v : BitVec 32) :
    (s.setNextTick v).out = s.out := rfl

@[simp] theorem State.setNextTick_port (s : State) (v : BitVec 32) :
    (s.setNextTick v).port = s.port := rfl

@[simp] theorem State.setNextTick_answers (s : State) (v : BitVec 32) :
    (s.setNextTick v).answers = s.answers := rfl

@[simp] theorem State.setNextTick_results (s : State) (v : BitVec 32) :
    (s.setNextTick v).results = s.results := rfl

@[simp] theorem State.setNextTick_events (s : State) (v : BitVec 32) :
    (s.setNextTick v).events = s.events := rfl

@[simp] theorem State.setNextTick_ticks (s : State) (v : BitVec 32) :
    (s.setNextTick v).ticks = s.ticks := rfl

/-! ### `State.setLevel` -/

@[simp] theorem State.setLevel_inst (s : State) (v : Word) :
    (s.setLevel v).inst = s.inst := rfl

@[simp] theorem State.setLevel_ch (s : State) (v : Word) :
    (s.setLevel v).ch = s.ch := rfl

@[simp] theorem State.setLevel_rng (s : State) (v : Word) :
    (s.setLevel v).rng = s.rng := rfl

@[simp] theorem State.setLevel_phase (s : State) (v : Word) :
    (s.setLevel v).phase = s.phase := rfl

@[simp] theorem State.setLevel_timerCount (s : State) (v : Word) :
    (s.setLevel v).timerCount = s.timerCount := rfl

@[simp] theorem State.setLevel_level (s : State) (v : Word) :
    (s.setLevel v).level = v := rfl

@[simp] theorem State.setLevel_nextTick (s : State) (v : Word) :
    (s.setLevel v).nextTick = s.nextTick := rfl

@[simp] theorem State.setLevel_profile (s : State) (v : Word) :
    (s.setLevel v).profile = s.profile := rfl

@[simp] theorem State.setLevel_volTab (s : State) (v : Word) :
    (s.setLevel v).volTab = s.volTab := rfl

@[simp] theorem State.setLevel_musicTimer (s : State) (v : Word) :
    (s.setLevel v).musicTimer = s.musicTimer := rfl

@[simp] theorem State.setLevel_musicCtr (s : State) (v : Word) :
    (s.setLevel v).musicCtr = s.musicCtr := rfl

@[simp] theorem State.setLevel_ticksPerMusicTimer (s : State) (v : Word) :
    (s.setLevel v).ticksPerMusicTimer = s.ticksPerMusicTimer := rfl

@[simp] theorem State.setLevel_out (s : State) (v : Word) :
    (s.setLevel v).out = s.out := rfl

@[simp] theorem State.setLevel_port (s : State) (v : Word) :
    (s.setLevel v).port = s.port := rfl

@[simp] theorem State.setLevel_answers (s : State) (v : Word) :
    (s.setLevel v).answers = s.answers := rfl

@[simp] theorem State.setLevel_results (s : State) (v : Word) :
    (s.setLevel v).results = s.results := rfl

@[simp] theorem State.setLevel_events (s : State) (v : Word) :
    (s.setLevel v).events = s.events := rfl

@[simp] theorem State.setLevel_ticks (s : State) (v : Word) :
    (s.setLevel v).ticks = s.ticks := rfl

/-! ### `countDown` -/

@[simp] theorem countDown_inst (k : Nat) (s : State) :
    (countDown k s).inst = s.inst := State.setNextTick_inst s _

@[simp] theorem countDown_ch (k : Nat) (s : State) :
    (countDown k s).ch = s.ch := State.setNextTick_ch s _

@[simp] theorem countDown_rng (k : Nat) (s : State) :
    (countDown k s).rng = s.rng := State.setNextTick_rng s _

@[simp] theorem countDown_phase (k : Nat) (s : State) :
    (countDown k s).phase = s.phase := State.setNextTick_phase s _

@[simp] theorem countDown_timerCount (k : Nat) (s : State) :
    (countDown k s).timerCount = s.timerCount := State.setNextTick_timerCount s _

@[simp] theorem countDown_level (k : Nat) (s : State) :
    (countDown k s).level = s.level := State.setNextTick_level s _

@[simp] theorem countDown_profile (k : Nat) (s : State) :
    (countDown k s).profile = s.profile := State.setNextTick_profile s _

@[simp] theorem countDown_volTab (k : Nat) (s : State) :
    (countDown k s).volTab = s.volTab := State.setNextTick_volTab s _

@[simp] theorem countDown_musicTimer (k : Nat) (s : State) :
    (countDown k s).musicTimer = s.musicTimer := State.setNextTick_musicTimer s _

@[simp] theorem countDown_musicCtr (k : Nat) (s : State) :
    (countDown k s).musicCtr = s.musicCtr := State.setNextTick_musicCtr s _

@[simp] theorem countDown_ticksPerMusicTimer (k : Nat) (s : State) :
    (countDown k s).ticksPerMusicTimer = s.ticksPerMusicTimer := State.setNextTick_ticksPerMusicTimer s _

@[simp] theorem countDown_out (k : Nat) (s : State) :
    (countDown k s).out = s.out := State.setNextTick_out s _

@[simp] theorem countDown_port (k : Nat) (s : State) :
    (countDown k s).port = s.port := State.setNextTick_port s _

@[simp] theorem countDown_answers (k : Nat) (s : State) :
    (countDown k s).answers = s.answers := State.setNextTick_answers s _

@[simp] theorem countDown_results (k : Nat) (s : State) :
    (countDown k s).results = s.results := State.setNextTick_results s _

@[simp] theorem countDown_events (k : Nat) (s : State) :
    (countDown k s).events = s.events := State.setNextTick_events s _

@[simp] theorem countDown_ticks (k : Nat) (s : State) :
    (countDown k s).ticks = s.ticks := State.setNextTick_ticks s _

/-! ### `lpfStep` -/

@[simp] theorem lpfStep_inst (acc : Int) (s : State) :
    (lpfStep acc s).inst = s.inst := State.setLevel_inst s _

@[simp] theorem lpfStep_ch (acc : Int) (s : State) :
    (lpfStep acc s).ch = s.ch := State.setLevel_ch s _

@[simp] theorem lpfStep_rng (acc : Int) (s : State) :
    (lpfStep acc s).rng = s.rng := State.setLevel_rng s _

@[simp] theorem lpfStep_phase (acc : Int) (s : State) :
    (lpfStep acc s).phase = s.phase := State.setLevel_phase s _

@[simp] theorem lpfStep_timerCount (acc : Int) (s : State) :
    (lpfStep acc s).timerCount = s.timerCount := State.setLevel_timerCount s _

@[simp] theorem lpfStep_nextTick (acc : Int) (s : State) :
    (lpfStep acc s).nextTick = s.nextTick := State.setLevel_nextTick s _

@[simp] theorem lpfStep_profile (acc : Int) (s : State) :
    (lpfStep acc s).profile = s.profile := State.setLevel_profile s _

@[simp] theorem lpfStep_volTab (acc : Int) (s : State) :
    (lpfStep acc s).volTab = s.volTab := State.setLevel_volTab s _

@[simp] theorem lpfStep_musicTimer (acc : Int) (s : State) :
    (lpfStep acc s).musicTimer = s.musicTimer := State.setLevel_musicTimer s _

@[simp] theorem lpfStep_musicCtr (acc : Int) (s : State) :
    (lpfStep acc s).musicCtr = s.musicCtr := State.setLevel_musicCtr s _

@[simp] theorem lpfStep_ticksPerMusicTimer (acc : Int) (s : State) :
    (lpfStep acc s).ticksPerMusicTimer = s.ticksPerMusicTimer := State.setLevel_ticksPerMusicTimer s _

@[simp] theorem lpfStep_out (acc : Int) (s : State) :
    (lpfStep acc s).out = s.out := State.setLevel_out s _

@[simp] theorem lpfStep_port (acc : Int) (s : State) :
    (lpfStep acc s).port = s.port := State.setLevel_port s _

@[simp] theorem lpfStep_answers (acc : Int) (s : State) :
    (lpfStep acc s).answers = s.answers := State.setLevel_answers s _

@[simp] theorem lpfStep_results (acc : Int) (s : State) :
    (lpfStep acc s).results = s.results := State.setLevel_results s _

@[simp] theorem lpfStep_events (acc : Int) (s : State) :
    (lpfStep acc s).events = s.events := State.setLevel_events s _

@[simp] theorem lpfStep_ticks (acc : Int) (s : State) :
    (lpfStep acc s).ticks = s.ticks := State.setLevel_ticks s _

/-! ### `reload` -/

@[simp] theorem reload_inst (s : State) :
    (reload s).inst = s.inst := State.setNextTick_inst s _

@[simp] theorem reload_ch (s : State) :
    (reload s).ch = s.ch := State.setNextTick_ch s _

@[simp] theorem reload_rng (s : State) :
    (reload s).rng = s.rng := State.setNextTick_rng s _

@[simp] theorem reload_phase (s : State) :
    (reload s).phase = s.phase := State.setNextTick_phase s _

@[simp] theorem reload_timerCount (s : State) :
    (reload s).timerCount = s.timerCount := State.setNextTick_timerCount s _

@[simp] theorem reload_level (s : State) :
    (reload s).level = s.level := State.setNextTick_level s _

@[simp] theorem reload_profile (s : State) :
    (reload s).profile = s.profile := State.setNextTick_profile s _

@[simp] theorem reload_volTab (s : State) :
    (reload s).volTab = s.volTab := State.setNextTick_volTab s _

@[simp] theorem reload_musicTimer (s : State) :
    (reload s).musicTimer = s.musicTimer := State.setNextTick_musicTimer s _

@[simp] theorem reload_musicCtr (s : State) :
    (reload s).musicCtr = s.musicCtr := State.setNextTick_musicCtr s _

@[simp] theorem reload_ticksPerMusicTimer (s : State) :
    (reload s).ticksPerMusicTimer = s.ticksPerMusicTimer := State.setNextTick_ticksPerMusicTimer s _

@[simp] theorem reload_out (s : State) :
    (reload s).out = s.out := State.setNextTick_out s _

@[simp] theorem reload_port (s : State) :
    (reload s).port = s.port := State.setNextTick_port s _

@[simp] theorem reload_answers (s : State) :
    (reload s).answers = s.answers := State.setNextTick_answers s _

@[simp] theorem reload_results (s : State) :
    (reload s).results = s.results := State.setNextTick_results s _

@[simp] theorem reload_events (s : State) :
    (reload s).events = s.events := State.setNextTick_events s _

@[simp] theorem reload_ticks (s : State) :
    (reload s).ticks = s.ticks := State.setNextTick_ticks s _

end Sys2Proof.Machine
end

