-- ==== Sys2Proof/Laws/Ops.lean ====
section
/-! SUPPORT. What each shared operation can do, said once. -/

namespace Sys2Proof.Machine

open Sys2Proof

/-! ## Sequencing -/

section
variable {α β : Type}

@[simp] theorem andThen_next (a : α) (f : α → Res β) : andThen (.next a) f = f a := rfl

@[simp] theorem andThen_fault (r : Fault) (f : α → Res β) : andThen (.fault r) f = .fault r := rfl

@[simp] theorem andThen_refused (r : Refusal) (f : α → Res β) :
    andThen (.refused r) f = .refused r := rfl

theorem andThen_eq_next {o : Res α} {f : α → Res β} {b : β} :
    andThen o f = .next b ↔ ∃ a, o = .next a ∧ f a = .next b := by
  cases o <;> simp

theorem andThen_eq_fault {o : Res α} {f : α → Res β} {r : Fault} :
    andThen o f = .fault r ↔ o = .fault r ∨ ∃ a, o = .next a ∧ f a = .fault r := by
  cases o <;> simp

theorem andThen_eq_refused {o : Res α} {f : α → Res β} {r : Refusal} :
    andThen o f = .refused r ↔ o = .refused r ∨ ∃ a, o = .next a ∧ f a = .refused r := by
  cases o <;> simp

theorem andThen_assoc {γ : Type} (o : Res α) (f : α → Res β) (g : β → Res γ) :
    andThen (andThen o f) g = andThen o fun a => andThen (f a) g := by
  cases o <;> rfl

end

/-! ## Arithmetic -/

theorem clamp16_bounds (i : Int) : -32768 ≤ clamp16 i ∧ clamp16 i ≤ 32767 := by
  unfold clamp16; omega

theorem clamp16_of_fits {i : Int} (h : -32768 ≤ i) (h' : i ≤ 32767) : clamp16 i = i := by
  unfold clamp16; omega

/-! ## What every instance's configuration meets (R4) -/

theorem checks_of_wellFormed (inst : Instance) :
    inst.cfg.ratesOk = true ∧ inst.cfg.updateStepsOk = true ∧ inst.cfg.presetsOk = true ∧
      inst.cfg.masksOk = true ∧ inst.cfg.hullOk = true ∧ inst.cfg.volTabOk = true := by
  have h := inst.wellFormed
  simp only [Config.wellFormed, Bool.and_eq_true] at h
  tauto

theorem tickStep_pos (inst : Instance) : 0 < tickStep inst.cfg := by
  have h := (checks_of_wellFormed inst).1
  simp only [Config.ratesOk, Bool.and_eq_true, decide_eq_true_eq] at h
  exact h.2

theorem sampleRate_pos (inst : Instance) : 0 < inst.cfg.sampleRate := by
  have h := (checks_of_wellFormed inst).1
  simp only [Config.ratesOk, Bool.and_eq_true, decide_eq_true_eq] at h
  exact h.1.1

/-- `UPDATE_STEP[p]` is above 0, and keeps the period of every frequency input of the profile below 2^31. -/
theorem updateStep_bounds (inst : Instance) (p : Profile) :
    0 < updateStep inst.cfg p ∧
      ∀ f, f ≤ (match p with | .spk => 65535 | .tg => 2046) → updateStep inst.cfg p * f < 2 ^ 31 := by
  have h := (checks_of_wellFormed inst).2.1
  simp only [Config.updateStepsOk, Bool.and_eq_true, decide_eq_true_eq] at h
  obtain ⟨⟨⟨h₁, h₂⟩, h₃⟩, h₄⟩ := h
  cases p with
  | spk => exact ⟨h₁, fun f hf => (Nat.mul_le_mul_left _ hf).trans_lt h₃⟩
  | tg => exact ⟨h₂, fun f hf => (Nat.mul_le_mul_left _ hf).trans_lt h₄⟩

/-- The check of property (c) of R84 tries enough constants: the largest of the quotients gives the same
floors as any rational that has the property (log entry 17). -/
theorem topProportional_iff (cfg : Config) :
    cfg.topProportional = true ↔
      ∃ p q : Nat, 0 < q ∧ ∀ v < 256, cfg.volTop v = min 65535 (p * v / q) := by
  simp only [Config.topProportional, List.any_eq_true, List.all_eq_true, List.mem_range, beq_iff_eq]
  constructor
  · rintro ⟨w, -, h⟩
    exact ⟨_, w + 1, w.succ_pos, h⟩
  · rintro ⟨p, q, hq, h⟩
    obtain ⟨w, hw, hm⟩ := Finset.exists_max_image (Finset.range 255)
      (fun w => (cfg.volTop (w + 1) : ℚ) / ((w + 1 : Nat) : ℚ)) ⟨0, by simp⟩
    rw [Finset.mem_range] at hw
    have hm' : ∀ v < 255, cfg.volTop (v + 1) * (w + 1) ≤ cfg.volTop (w + 1) * (v + 1) := fun v hv => by
      have := hm v (Finset.mem_range.mpr hv)
      rw [div_le_div_iff₀ (by positivity) (by positivity)] at this
      exact_mod_cast this
    have hle : ∀ v < 256, cfg.volTop v * q ≤ p * v := fun v hv => by
      rw [h v hv]
      exact (Nat.mul_le_mul_right q (min_le_right _ _)).trans (Nat.div_mul_le_self _ _)
    refine ⟨w, hw, fun v hv => ?_⟩
    have hu : cfg.volTop (w + 1) * v / (w + 1) ≤ p * v / q := by
      rw [Nat.le_div_iff_mul_le hq]
      have h₁ := Nat.div_mul_le_self (cfg.volTop (w + 1) * v) (w + 1)
      have h₂ := Nat.mul_le_mul_left v (hle (w + 1) (by omega))
      generalize cfg.volTop (w + 1) * v / (w + 1) = x at *
      have : (x * q) * (w + 1) ≤ (p * v) * (w + 1) := by nlinarith
      exact Nat.le_of_mul_le_mul_right this w.succ_pos
    have hl : cfg.volTop v ≤ cfg.volTop (w + 1) * v / (w + 1) := by
      rw [Nat.le_div_iff_mul_le w.succ_pos]
      cases v with
      | zero => simp [h 0 (by omega)]
      | succ v => exact hm' v (by omega)
    have := h v hv
    omega

/-! ## The creation of an instance -/

theorem State.create_cases (cfg : Config) :
    (∃ h : cfg.wellFormed = true, State.create cfg = .next (State.resetOf ⟨cfg, h⟩)) ∨
      (cfg.wellFormed = false ∧ State.create cfg = .refused .illFormedInstance) := by
  unfold State.create
  by_cases h : cfg.wellFormed = true
  · exact .inl ⟨h, dif_pos h⟩
  · exact .inr ⟨Bool.eq_false_iff.mpr h, dif_neg h⟩

/-! ## Operands -/

theorem Reg.index_injective {q r : Reg} (h : q.index = r.index) : q = r := by
  revert h; cases q <;> cases r <;> decide

theorem regOf_index (r : BitVec 5) (q : Reg) : regOf r = some q → q.index.val = r.toNat := by
  revert r; cases q <;> decide

theorem regOf_eq_none {r : BitVec 5} (h : 23 ≤ r.toNat) : regOf r = none := by
  revert r; decide

theorem regOf_isSome {r : BitVec 5} (h : r.toNat < 23) : ∃ q, regOf r = some q := by
  have key : ∀ r : BitVec 5, r.toNat < 23 → (regOf r).isSome = true := by decide
  exact Option.isSome_iff_exists.mp (key r h)

theorem slotOf_real {c : BitVec 3} (h : c.toNat < 4) : (slotOf c).val = c.toNat := by
  simp [slotOf, h]

theorem slotOf_sentinel {c : BitVec 3} (h : 4 ≤ c.toNat) : slotOf c = 4 := by
  simp [slotOf]; omega

theorem chanSlot_ne_sentinel (c : Fin 4) : chanSlot c ≠ 4 := by
  revert c; decide

theorem chanSlot_injective {c d : Fin 4} (h : chanSlot c = chanSlot d) : c = d := by
  simpa [chanSlot] using h

/-! ## The channel register file: read after write -/

theorem State.reg_setReg (s : State) (sl sl' : Fin 5) (r r' : Reg) (v : Word) :
    (s.setReg sl r v).reg sl' r' = if sl' = sl ∧ r' = r then v else s.reg sl' r' := by
  by_cases h : sl' = sl
  · subst h
    by_cases h' : r' = r
    · subst h'; simp [State.reg, State.setReg]
    · have : (r.index : Nat) ≠ r'.index := fun e => h' (Reg.index_injective (Fin.ext e.symm))
      simp [State.reg, State.setReg, h', this]
  · have : (sl : Nat) ≠ sl' := fun e => h (Fin.ext e.symm)
    simp [State.reg, State.setReg, h, this]

@[simp] theorem State.reg_setReg_self (s : State) (sl : Fin 5) (r : Reg) (v : Word) :
    (s.setReg sl r v).reg sl r = v := by
  simp [State.reg_setReg]

theorem State.reg_setReg_ne (s : State) {sl sl' : Fin 5} {r r' : Reg} (v : Word)
    (h : sl' ≠ sl ∨ r' ≠ r) : (s.setReg sl r v).reg sl' r' = s.reg sl' r' := by
  rw [State.reg_setReg, if_neg]; tauto

theorem State.reg_clearSlot (s : State) (sl sl' : Fin 5) (r : Reg) :
    (s.clearSlot sl).reg sl' r = if sl' = sl then 0 else s.reg sl' r := by
  by_cases h : sl' = sl
  · subst h; simp [State.reg, State.clearSlot]
  · have : (sl : Nat) ≠ sl' := fun e => h (Fin.ext e.symm)
    simp [State.reg, State.clearSlot, h, this]

/-- A register reads the same in states with the same register file. -/
theorem State.reg_congr {s t : State} (h : t.ch = s.ch) (sl : Fin 5) (r : Reg) :
    t.reg sl r = s.reg sl r := by
  simp [State.reg, h]

/-! ## The ROMs -/

theorem hullRead_cases (s : State) (i : Nat) :
    (∃ w, s.cfg.hull[i]? = some w ∧ hullRead s i = .next w) ∨
      (s.cfg.hull.length ≤ i ∧ hullRead s i = .fault .hullBounds) := by
  unfold hullRead
  cases h : s.cfg.hull[i]? with
  | some w => exact .inl ⟨w, rfl, rfl⟩
  | none => exact .inr ⟨by simpa using h, rfl⟩

theorem fmRead_cases (s : State) (i : Nat) :
    (∃ b, s.cfg.fm[i]? = some b ∧ fmRead s i = .next b.toInt) ∨
      (s.cfg.fm.length ≤ i ∧ fmRead s i = .fault .fmBounds) := by
  unfold fmRead
  cases h : s.cfg.fm[i]? with
  | some b => exact .inl ⟨b, rfl, rfl⟩
  | none => exact .inr ⟨by simpa using h, rfl⟩

theorem volTabRead_cases (s : State) (i : Fin 16) :
    (∃ t, s.volTab = some t ∧ volTabRead s i = .next t[i]) ∨
      (s.volTab = none ∧ volTabRead s i = .fault .volTabUnset) := by
  unfold volTabRead
  cases h : s.volTab with
  | some t => exact .inl ⟨t, rfl, rfl⟩
  | none => exact .inr ⟨rfl, rfl⟩

/-! ## The oscillators' state -/

theorem State.timer_setTimer (s : State) (c c' : Fin 4) (t : Int) :
    (s.setTimer c t).timer c' = if c' = c then (BitVec.ofInt 32 t).toInt else s.timer c' := by
  by_cases h : c' = c
  · subst h; simp [State.timer, State.setTimer]
  · have : (c : Nat) ≠ c' := fun e => h (Fin.ext e.symm)
    simp [State.timer, State.setTimer, h, this]

/-- A countdown that fits 32 bits signed is stored as it is. -/
theorem State.timer_setTimer_self (s : State) (c : Fin 4) {t : Int} (h : -2 ^ 31 ≤ t)
    (h' : t < 2 ^ 31) : (s.setTimer c t).timer c = t := by
  rw [State.timer_setTimer, if_pos rfl, BitVec.toInt_ofInt, Int.bmod_eq_of_le] <;> omega

theorem State.phase_togglePhase (s : State) (c c' : Fin 4) :
    (s.togglePhase c).phase[c'] = if c' = c then !s.phase[c'] else s.phase[c'] := by
  by_cases h : c' = c
  · subst h; simp
  · have : (c : Nat) ≠ c' := fun e => h (Fin.ext e.symm)
    simp [h, this]

/-! ## The host's side -/

@[simp] theorem State.fetch_present (s : State) (w : CmdWord) :
    (s.present w).fetch = some (w, s) := rfl

theorem State.fetch_cons {s : State} {w : CmdWord} {ws : List CmdWord} (h : s.port = w :: ws) :
    s.fetch = some (w, { s with port := ws }) := by
  simp [State.fetch, h]

theorem State.takeEvent_none {s : State} (e : Event) (h : s.answers = []) :
    s.takeEvent e = ([], { s with events := s.events ++ [⟨s.ticks, e⟩] }) := by
  simp [State.takeEvent, h]

theorem State.takeEvent_cons {s : State} (e : Event) {a : List CmdWord} {as : List (List CmdWord)}
    (h : s.answers = a :: as) :
    s.takeEvent e = (a, { s with events := s.events ++ [⟨s.ticks, e⟩], answers := as }) := by
  simp [State.takeEvent, h]

/-! ## Service calls -/

/-- What a service call leaves alone: everything but the channel registers, the prescaler and the results
returned. -/
def ServiceFrame (s t : State) : Prop :=
  SameOscillators s t ∧ t.musicTimer = s.musicTimer ∧ t.musicCtr = s.musicCtr ∧ SameSetup s t ∧
    SameSound s t ∧ t.port = s.port ∧ t.answers = s.answers ∧ t.events = s.events

theorem ServiceFrame.refl (s : State) : ServiceFrame s s := by
  simp [ServiceFrame, SameOscillators, SameSetup, SameSound]

theorem ServiceFrame.trans {s t u : State} (h : ServiceFrame s t) (h' : ServiceFrame t u) :
    ServiceFrame s u := by
  simp only [ServiceFrame, SameOscillators, SameSetup, SameSound] at *
  simp_all

/-- A command of a service call answers a next state within its frame, or is the violation of R90. -/
theorem serviceCommand_cases (i : Instr) (s : State) :
    (∃ t, serviceCommand i s = .next t ∧ i.allowedInService = true ∧ ServiceFrame s t) ∨
      (serviceCommand i s = .refused .serviceViolation ∧ i.allowedInService = false) := by
  cases i with
  | wrch c r imm =>
    refine .inl ⟨_, rfl, rfl, ?_⟩
    unfold State.writeIndexed
    split <;> simp [ServiceFrame, SameOscillators, SameSetup, SameSound]
  | nop | rdch | clrch | wrtpm | rdtmr =>
    exact .inl ⟨_, rfl, rfl, by simp [ServiceFrame, SameOscillators, SameSetup, SameSound]⟩
  | reset | mode | setvol | pull => exact .inr ⟨rfl, rfl⟩

/-- A word of a service call: as `serviceCommand_cases`, a reserved encoding being allowed. -/
theorem serviceWord_cases (w : CmdWord) (s : State) :
    (∃ t, serviceWord w s = .next t ∧ serviceWordAllowed w = true ∧ ServiceFrame s t) ∨
      (serviceWord w s = .refused .serviceViolation ∧ serviceWordAllowed w = false) := by
  unfold serviceWord serviceWordAllowed
  cases decode w with
  | ok i => exact serviceCommand_cases i s
  | error e => exact .inl ⟨s, rfl, rfl, ServiceFrame.refl s⟩

/-- The words of one answer. -/
theorem serviceWords_cases (ws : List CmdWord) (s : State) :
    (∃ t, serviceWords ws s = .next t ∧ ServiceFrame s t) ∨
      (serviceWords ws s = .refused .serviceViolation ∧ ws.all serviceWordAllowed = false) := by
  induction ws generalizing s with
  | nil => exact .inl ⟨s, rfl, ServiceFrame.refl s⟩
  | cons w ws ih =>
    obtain ⟨t, ht, ha, hf⟩ | ⟨ht, ha⟩ := serviceWord_cases w s
    · simp only [serviceWords, ht, andThen_next]
      obtain ⟨u, hu, hg⟩ | ⟨hu, hb⟩ := ih t
      · exact .inl ⟨u, hu, hf.trans hg⟩
      · exact .inr ⟨hu, by simp [ha, hb]⟩
    · exact .inr ⟨by simp [serviceWords, ht], by simp [ha]⟩

/-- A service event (R191, R192): whatever the host does, the generators, the divider and the frames stay
as they are, and the event is recorded. -/
theorem serve_next {e : Event} {s t : State} (h : serve e s = .next t) :
    SameOscillators s t ∧ t.musicTimer = s.musicTimer ∧ t.musicCtr = s.musicCtr ∧ SameSetup s t ∧
      SameSound s t ∧ t.port = s.port ∧ t.answers = s.answers.tail ∧
      t.events = s.events ++ [⟨s.ticks, e⟩] := by
  unfold serve at h
  obtain ⟨u, hu, hf⟩ | ⟨hu, -⟩ := serviceWords_cases (s.takeEvent e).1 (s.takeEvent e).2
  · rw [h] at hu
    injection hu with hu
    subst hu
    simp only [ServiceFrame, SameOscillators, SameSetup, SameSound] at hf ⊢
    cases ha : s.answers with
    | nil => rw [State.takeEvent_none e ha] at hf; simp_all
    | cons a as => rw [State.takeEvent_cons e ha] at hf; simp_all
  · rw [h] at hu; cases hu

/-- A host with no answer left does nothing at a service point (R181 (c)). -/
theorem serve_silent {e : Event} {s : State} (h : s.answers = []) :
    serve e s = .next { s with events := s.events ++ [⟨s.ticks, e⟩] } := by
  simp [serve, State.takeEvent_none e h, serviceWords]

end Sys2Proof.Machine
end

