-- ==== Sys2Proof/Laws/Engines.lean ====
section
/-! SUPPORT. What each operation of the engines can do, said once: the inversions that later proofs cite
in place of the definitions. -/

namespace Sys2Proof.Machine

open Sys2Proof

/-! ## Envelope -/

theorem advanceHull_cases (sl : Fin 5) (s : State) :
    ((s.reg sl .hullOffset).toNat + 4 ≤ 65535 ∧
        advanceHull sl s = .next (s.setReg sl .hullOffset (s.reg sl .hullOffset + 4))) ∨
      (65535 < (s.reg sl .hullOffset).toNat + 4 ∧ advanceHull sl s = .fault .hullBounds) := by
  unfold advanceHull
  by_cases h : 65535 < (s.reg sl .hullOffset).toNat + 4
  · exact .inr ⟨h, if_pos h⟩
  · exact .inl ⟨by omega, if_neg h⟩

/-- One iteration of the walk: the pair faults, holds and goes on, or ramps and ends. -/
theorem hullLoop_succ_cases (sl : Fin 5) (fuel : Nat) (s : State) :
    hullLoop sl (fuel + 1) s = .fault .hullBounds ∨
      ∃ a b, s.cfg.hull[hullIndex sl s]? = some a ∧ s.cfg.hull[hullIndex sl s + 1]? = some b ∧
        (s.reg sl .hullOffset).toNat + 4 ≤ 65535 ∧
        hullLoop sl (fuel + 1) s =
          if b = 0xFFFF then
            hullLoop sl fuel (holdPair sl a (s.setReg sl .hullOffset (s.reg sl .hullOffset + 4)))
          else .next (rampPair sl a b (s.setReg sl .hullOffset (s.reg sl .hullOffset + 4))) := by
  rw [hullLoop]
  obtain ⟨a, ha, hr⟩ | ⟨-, hr⟩ := hullRead_cases s (hullIndex sl s)
  · obtain ⟨b, hb, hr'⟩ | ⟨-, hr'⟩ := hullRead_cases s (hullIndex sl s + 1)
    · obtain ⟨hc, hr''⟩ | ⟨-, hr''⟩ := advanceHull_cases sl s
      · exact .inr ⟨a, b, ha, hb, hc, by simp only [hr, hr', hr'', andThen_next]⟩
      · exact .inl (by simp only [hr, hr', hr'', andThen_next, andThen_fault])
    · exact .inl (by simp only [hr, hr', andThen_next, andThen_fault])
  · exact .inl (by simp only [hr, andThen_fault])

/-! ## Frequency modulation -/

theorem effectiveFreq_cases (sl : Fin 5) (s : State) :
    (∃ b, s.cfg.fm[fmIndex sl s]? = some b ∧
        effectiveFreq sl s = .next (s.setReg sl .freq
          (modulated (s.reg sl .baseFreq) b.toInt (s.reg sl .freqmodMult)))) ∨
      (s.cfg.fm.length ≤ fmIndex sl s ∧ effectiveFreq sl s = .fault .fmBounds) := by
  unfold effectiveFreq
  obtain ⟨b, hb, hr⟩ | ⟨hl, hr⟩ := fmRead_cases s (fmIndex sl s)
  · exact .inl ⟨b, hb, by simp only [hr, andThen_next]⟩
  · exact .inr ⟨hl, by simp only [hr, andThen_fault]⟩

/-! ## Oscillator -/

/-- An edge touches the channel's phase bit and `RNG`, nothing else. -/
theorem oscEdge_eq (fb : Option Mask) (c : Fin 4) (s : State) :
    oscEdge fb c s =
      { s with phase := (oscEdge fb c s).phase, rng := (oscEdge fb c s).rng } := by
  cases fb with
  | none => rfl
  | some m => simp only [oscEdge, lfsrEdge]; split <;> rfl

/-- An edge leaves the other channels' phase bits alone. -/
theorem oscEdge_phase_ne (fb : Option Mask) {c c' : Fin 4} (s : State) (h : c' ≠ c) :
    (oscEdge fb c s).phase[c'] = s.phase[c'] := by
  cases fb with
  | none => simp only [oscEdge]; rw [State.phase_togglePhase, if_neg h]
  | some m =>
    simp only [oscEdge, lfsrEdge]
    split
    · exact (State.phase_togglePhase s c c').trans (if_neg h)
    · rfl

/-- Every edge of a frame, likewise. -/
theorem oscEdges_eq (fb : Option Mask) (c : Fin 4) (period fuel : Nat) (t d : Int) (s : State) :
    (oscEdges fb c period fuel t d s).2.2 =
      { s with
        phase := (oscEdges fb c period fuel t d s).2.2.phase
        rng := (oscEdges fb c period fuel t d s).2.2.rng } := by
  induction fuel generalizing t d s with
  | zero => rfl
  | succ k ih =>
    rw [oscEdges]
    split
    · have h := ih (t + period) (if (oscEdge fb c s).phase[c] then d + period else d) (oscEdge fb c s)
      obtain ⟨p, r, h'⟩ : ∃ p r, oscEdge fb c s = { s with phase := p, rng := r } :=
        ⟨_, _, oscEdge_eq fb c s⟩
      rw [h'] at h ⊢
      exact h
    · rfl

/-- The bound of the edge loop is never what ends it: with a period of at least 1 the countdown comes out
above 0. -/
theorem oscEdges_pos (fb : Option Mask) (c : Fin 4) {period : Nat} (hp : 0 < period) (fuel : Nat)
    (t d : Int) (s : State) (h : 1 - t ≤ fuel) : 0 < (oscEdges fb c period fuel t d s).1 := by
  induction fuel generalizing t d s with
  | zero => simp only [oscEdges]; omega
  | succ k ih =>
    rw [oscEdges]
    split
    · exact ih _ _ _ (by omega)
    · omega

/-- The edge loop of R132 in closed form: `k` edges, the first of which find the countdown at 0 or below and
the last of which takes it above. -/
theorem oscEdges_iterate (fb : Option Mask) (c : Fin 4) (period : Nat) {fuel k : Nat} (t d : Int)
    (s : State) (hk : k ≤ fuel) (hd : ∀ j < k, t + j * period ≤ 0) (hu : 0 < t + k * period) :
    oscEdges fb c period fuel t d s =
      (t + k * period, d + highPeriods (oscEdge fb c) c period k s, (oscEdge fb c)^[k] s) := by
  induction k generalizing fuel t d s with
  | zero =>
    cases fuel with
    | zero => simp [oscEdges, highPeriods]
    | succ n => rw [oscEdges, if_neg (by omega)]; simp [highPeriods]
  | succ k ih =>
    obtain ⟨n, rfl⟩ : ∃ n, fuel = n + 1 := ⟨fuel - 1, by omega⟩
    have h₀ := hd 0 (by omega)
    have e : ∀ j : Nat, t + period + j * period = t + ((j + 1 : Nat) : Int) * period := fun j => by
      push_cast; ring
    rw [oscEdges, if_pos (by omega),
      ih _ _ _ (by omega) (fun j hj => by rw [e]; exact hd _ (by omega)) (by rw [e]; exact hu), e,
      highPeriods, Function.iterate_succ_apply]
    refine Prod.ext rfl (Prod.ext ?_ rfl)
    dsimp only
    split <;> omega

/-- A period is at least 1. -/
theorem oscPeriod_pos (s : State) (f : Nat) : 0 < oscPeriod s f := by
  have := (updateStep_bounds s.inst s.profile).1
  unfold oscPeriod
  split <;> omega

theorem osc_cases (c : Fin 4) (f : Nat) (vt : Word) (fb : Option Mask) (x : State × Int) :
    (2 ^ 31 ≤ oscPeriod x.1 f ∧ osc c f vt fb x = .fault .periodRange) ∨
      (oscPeriod x.1 f < 2 ^ 31 ∧
        osc c f vt fb x = .next ((oscSpan c (oscPeriod x.1 f) fb x.1).2,
          clamp16 (x.2 + contribution (oscSpan c (oscPeriod x.1 f) fb x.1).1 vt))) := by
  unfold osc
  by_cases h : 2 ^ 31 ≤ oscPeriod x.1 f
  · exact .inl ⟨h, if_pos h⟩
  · exact .inr ⟨by omega, if_neg h⟩

/-! ## Tick -/

theorem musicTimerStep_cases (s : State) :
    musicTimerStep s = { s with musicCtr := 0, musicTimer := s.musicTimer + 1 } ∨
      musicTimerStep s = { s with musicCtr := s.musicCtr + 1 } := by
  by_cases h : s.ticksPerMusicTimer ≤ s.musicCtr + 1
  · exact .inl (if_pos h)
  · exact .inr (if_neg h)

theorem chTick_next {c : Fin 4} {s t : State} (h : chTick c s = .next t) :
    ∃ u v, effectiveFreq (chanSlot c) (cursorAdvance (chanSlot c) (baseRamp (chanSlot c)
        (volumeRamp (chanSlot c) s))) = .next u ∧
      hullStep (chanSlot c) (noteOff (chanSlot c) u) = .next v ∧ durationStep c v = .next t := by
  obtain ⟨u, hu, h⟩ := andThen_eq_next.mp h
  obtain ⟨v, hv, h⟩ := andThen_eq_next.mp h
  exact ⟨u, v, hu, hv, h⟩

theorem tickChannels_next {s t : State} (h : tickChannels s = .next t) :
    ∃ a b c, tickChannel 0 s = .next a ∧ tickChannel 1 a = .next b ∧ tickChannel 2 b = .next c ∧
      tickChannel 3 c = .next t := by
  obtain ⟨a, ha, h⟩ := andThen_eq_next.mp h
  obtain ⟨b, hb, h⟩ := andThen_eq_next.mp h
  obtain ⟨c, hc, h⟩ := andThen_eq_next.mp h
  exact ⟨a, b, c, ha, hb, hc, h⟩

theorem tick_next {s t : State} (h : tick s = .next t) :
    ∃ u v, tickChannels s = .next u ∧ idleStep (anyActive s) (musicTimerStep u) = .next v ∧
      t = { v with ticks := v.ticks + 1 } := by
  obtain ⟨u, hu, h⟩ := andThen_eq_next.mp h
  obtain ⟨v, hv, h⟩ := andThen_eq_next.mp h
  exact ⟨u, v, hu, hv, by injection h with h; exact h.symm⟩

/-! ## Frames and `PULL` -/

theorem frameStep_next {s t : State} (h : frameStep s = .next t) :
    ∃ x, mix s = .next x ∧ t = finishFrame x := by
  obtain ⟨x, hx, h⟩ := andThen_eq_next.mp h
  exact ⟨x, hx, by injection h with h; exact h.symm⟩

/-- `j + k` frames are `j` frames and then `k`. -/
theorem frames_add (j k : Nat) (s : State) : frames (j + k) s = andThen (frames j s) (frames k) := by
  induction j generalizing s with
  | zero => simp [frames]
  | succ j ih =>
    rw [show j + 1 + k = (j + k) + 1 by omega, frames, frames, andThen_assoc]
    congr 1
    funext a
    exact ih a

/-- The reload of a tick that is due fits its register, wherever `tickFits` holds. -/
theorem reload_nextTick {s : State} (hf : tickFits s.cfg) (h : s.nextTick.toNat < one) :
    (reload s).nextTick.toNat = s.nextTick.toNat + tickStep s.cfg := by
  have hs : s.nextTick.toNat + tickStep s.cfg < 2 ^ 32 := by unfold tickFits at hf; omega
  unfold reload
  rw [State.setNextTick_nextTick, if_pos hs, BitVec.toNat_ofNat, Nat.mod_eq_of_lt hs]

/-- A due tick's reload moves `NEXT_TICK` up (R162 corner case 5), in the open case of log entry 3 to a
whole frame at least. -/
theorem reload_progress {s : State} (h : s.nextTick.toNat < one) :
    s.nextTick.toNat < (reload s).nextTick.toNat := by
  have hp := tickStep_pos s.inst
  unfold reload
  rw [State.setNextTick_nextTick]
  split
  · rw [BitVec.toNat_ofNat, Nat.mod_eq_of_lt ‹_›, State.cfg_def]; omega
  · have ho : one = 65536 := rfl
    have := (Config.freeNextTick s.ticks (s.nextTick.toNat + tickStep s.cfg)).isLt
    rw [overflowedTick, BitVec.toNat_ofNat, Nat.mod_eq_of_lt (by omega)]; omega

/-- Counting down `k` frames takes `k * ONE` off `NEXT_TICK`, and never wraps below 0. -/
theorem countDown_nextTick (s : State) (k : Nat) :
    (countDown k s).nextTick.toNat = s.nextTick.toNat - k * one := by
  have := s.nextTick.isLt
  unfold countDown
  rw [State.setNextTick_nextTick, BitVec.toNat_ofNat, Nat.mod_eq_of_lt (by omega)]

/-- Less than one whole frame is left. -/
theorem wholeFrames_eq_zero {s : State} : wholeFrames s = 0 ↔ s.nextTick.toNat < one := by
  simp [wholeFrames, one]

/-- Counting down no frame changes nothing. -/
theorem countDown_zero (s : State) : countDown 0 s = s := by
  simp [countDown, State.setNextTick]

/-- With no frame left to produce, the loop ends (R162). -/
theorem pullLoop_none (fuel : Nat) (s : State) : pullLoop fuel 0 s = .next s := by
  cases fuel <;> rfl

/-- One iteration of the loop of `PULL` (R162), of `m` frames. -/
theorem pullLoop_step {fuel left m : Nat} {s : State} (hl : left ≠ 0)
    (hm : min left (wholeFrames s) = m) :
    pullLoop (fuel + 1) left s = andThen (frames m s) fun t =>
      andThen (tickIfDue (countDown m t)) fun u => pullLoop fuel (left - m) u := by
  rw [pullLoop, if_neg hl, hm]

/-- Step (d) of R162: where less than one whole frame is left, a tick and the reload. -/
theorem tickIfDue_eq (s : State) :
    tickIfDue s =
      if s.nextTick.toNat < one then andThen (tick s) fun t => .next (reload t) else .next s := by
  by_cases h : s.nextTick.toNat < one
  · rw [tickIfDue, if_pos (wholeFrames_eq_zero.mpr h), if_pos h]
  · rw [tickIfDue, if_neg (mt wholeFrames_eq_zero.mp h), if_neg h]

/-- One frame is one frame step. -/
theorem frames_one (s : State) : frames 1 s = frameStep s := by
  rw [frames]
  cases frameStep s <;> rfl

/-! ### `NEXT_TICK` is the divider's alone -/

theorem hullLoop_nextTick (sl : Fin 5) (fuel : Nat) {s t : State} (h : hullLoop sl fuel s = .next t) :
    t.nextTick = s.nextTick := by
  induction fuel generalizing s with
  | zero => cases h
  | succ k ih =>
    obtain hf | ⟨a, b, -, -, -, hr⟩ := hullLoop_succ_cases sl k s
    · rw [hf] at h; cases h
    · rw [hr] at h
      split at h
      · refine (ih h).trans ?_
        simp only [holdPair]
        split <;> simp
      · injection h with h
        subst h
        simp [rampPair]

theorem chTick_nextTick {c : Fin 4} {s t : State} (h : chTick c s = .next t) :
    t.nextTick = s.nextTick := by
  obtain ⟨u, v, hu, hv, ht⟩ := chTick_next h
  have h₁ : u.nextTick = s.nextTick := by
    obtain ⟨b, -, hr⟩ | ⟨-, hr⟩ := effectiveFreq_cases (chanSlot c) (cursorAdvance (chanSlot c)
      (baseRamp (chanSlot c) (volumeRamp (chanSlot c) s)))
    · rw [hr] at hu
      injection hu with hu
      subst hu
      simp [cursorAdvance, baseRamp, volumeRamp]
    · rw [hr] at hu; cases hu
  have h₂ : v.nextTick = u.nextTick := by
    have hn : (noteOff (chanSlot c) u).nextTick = u.nextTick := by
      unfold noteOff
      split
      · rfl
      · dsimp only
        split <;> simp
    unfold hullStep at hv
    split at hv
    · injection hv with hv; exact hv ▸ hn
    · dsimp only at hv
      split at hv
      · exact (hullLoop_nextTick _ _ hv).trans (by simp [hn])
      · injection hv with hv; subst hv; simp [hn]
  have h₃ : t.nextTick = v.nextTick := by
    unfold durationStep at ht
    dsimp only at ht
    split at ht
    · exact (serve_next ht).2.2.2.2.1.2.2.1.trans (by simp)
    · injection ht with ht; subst ht; simp
  rw [h₃, h₂, h₁]

theorem tick_nextTick {s t : State} (h : tick s = .next t) : t.nextTick = s.nextTick := by
  have hc : ∀ {c : Fin 4} {s t : State}, tickChannel c s = .next t → t.nextTick = s.nextTick := by
    intro c s t h
    unfold tickChannel at h
    split at h
    · exact chTick_nextTick h
    · injection h with h; rw [h]
  obtain ⟨u, v, hu, hv, rfl⟩ := tick_next h
  obtain ⟨a, b, d, ha, hb, hd, hu⟩ := tickChannels_next hu
  have hm : (musicTimerStep u).nextTick = u.nextTick := by
    obtain hm | hm := musicTimerStep_cases u <;> rw [hm]
  have hi : v.nextTick = (musicTimerStep u).nextTick := by
    unfold idleStep at hv
    split at hv
    · exact (serve_next hv).2.2.2.2.1.2.2.1
    · injection hv with hv; rw [hv]
  show v.nextTick = s.nextTick
  rw [hi, hm, hc hu, hc hd, hc hb, hc ha]

/-! ### The bound of the loop of `PULL` -/

/-- The iterations that `left` frames can take: `ONE` ticks at most before each of them, and as many as are
left below `ONE` before the first. -/
def pullNeed (left : Nat) (s : State) : Nat := left * (one + 1) + (one - s.nextTick.toNat)

/-- `m` frames, at least one, shorten the need by one iteration and more, wherever `NEXT_TICK` stands. -/
theorem pullNeed_frames {left m k a b n : Nat} (hl : left ≠ 0) (hm : 1 ≤ m)
    (h : left * (n + 1) + (n - a) ≤ k + 1) : (left - m) * (n + 1) + (n - b) ≤ k := by
  obtain ⟨l, rfl⟩ := Nat.exists_eq_succ_of_ne_zero hl
  have := Nat.mul_le_mul_right (n + 1) (show l.succ - m ≤ l by omega)
  rw [Nat.succ_mul] at h
  omega

/-- Past that many, more fuel changes nothing. -/
theorem pullLoop_succ {fuel left : Nat} {s : State} (h : pullNeed left s ≤ fuel) :
    pullLoop (fuel + 1) left s = pullLoop fuel left s := by
  induction fuel generalizing left s with
  | zero =>
    have : left = 0 := by
      have ho : one = 65536 := rfl
      unfold pullNeed at h
      rw [ho] at h
      omega
    subst this
    rfl
  | succ k ih =>
    rw [pullLoop, pullLoop]
    split
    · rfl
    · rename_i hl
      cases hf : frames (min left (wholeFrames s)) s with
      | fault r => rfl
      | refused r => rfl
      | next t =>
        simp only [andThen_next]
        cases ht : tickIfDue (countDown (min left (wholeFrames s)) t) with
        | fault r => rfl
        | refused r => rfl
        | next u =>
          simp only [andThen_next]
          refine ih ?_
          unfold pullNeed at h ⊢
          have ho : one = 65536 := rfl
          by_cases hw : wholeFrames s = 0
          · have hs : s.nextTick.toNat < one := by unfold wholeFrames at hw; rw [ho] at hw ⊢; omega
            have hst : t = s := by
              rw [hw, Nat.min_zero] at hf; injection hf with hf; exact hf.symm
            subst hst
            rw [hw, Nat.min_zero] at ht ⊢
            have hn : (countDown 0 t).nextTick.toNat = t.nextTick.toNat := by
              rw [countDown_nextTick]; omega
            have hw' : wholeFrames (countDown 0 t) = 0 := by
              unfold wholeFrames at hw ⊢; rw [hn]; exact hw
            rw [tickIfDue, if_pos hw'] at ht
            obtain ⟨v, hv, hr⟩ := andThen_eq_next.mp ht
            injection hr with hr
            have hv' := tick_nextTick hv
            have := reload_progress (s := v) (by rw [hv', hn]; exact hs)
            rw [hr, hv', hn] at this
            rw [Nat.sub_zero]
            rw [ho] at h hs ⊢
            omega
          · have : 1 ≤ min left (wholeFrames s) := by omega
            generalize min left (wholeFrames s) = m at this ⊢
            exact pullNeed_frames hl this h

/-- The bound of `execPull` is enough: it is never what ends the loop of `PULL n`. -/
theorem pullLoop_bound (n k : Nat) (s : State) :
    pullLoop (pullBound n + k) n s = pullLoop (pullBound n) n s := by
  induction k with
  | zero => rw [Nat.add_zero]
  | succ k ih =>
    rw [← Nat.add_assoc, pullLoop_succ, ih]
    unfold pullNeed pullBound
    omega

end Sys2Proof.Machine
end

