-- ==== Sys2Proof/Laws/PerInstr.lean ====
section
/-! SUPPORT. The family `EncodedWordMatchesRow`: the word of every command matches the command's own row
of the opcode map (R61), said per constructor. -/

namespace Sys2Proof.Laws.EncodedWordMatchesRow

open Sys2Proof

/-- The encoded word under the row's mask is the row's pattern. -/
def Statement (i : Instr) : Prop := encode i &&& i.row.mask = i.row.pattern

theorem nop : Statement .nop := by unfold Statement; decide

theorem reset : Statement .reset := by unfold Statement; decide

theorem mode (p : Profile) : Statement (.mode p) := by
  unfold Statement; cases p <;> decide

theorem setvol (v : BitVec 8) : Statement (.setvol v) := by
  unfold Statement encode Instr.row
  apply BitVec.eq_of_getLsbD_eq
  intro i hi
  rw [BitVec.getLsbD_and]
  interval_cases i <;> simp only [BitVec.getLsbD_append] <;> simp

theorem wrch (c : BitVec 3) (r : BitVec 5) (imm : Word) : Statement (.wrch c r imm) := by
  unfold Statement encode Instr.row
  apply BitVec.eq_of_getLsbD_eq
  intro i hi
  rw [BitVec.getLsbD_and]
  interval_cases i <;> simp only [BitVec.getLsbD_append] <;> simp

theorem rdch (c : BitVec 3) (r : BitVec 5) : Statement (.rdch c r) := by
  unfold Statement encode Instr.row
  apply BitVec.eq_of_getLsbD_eq
  intro i hi
  rw [BitVec.getLsbD_and]
  interval_cases i <;> simp only [BitVec.getLsbD_append] <;> simp

theorem clrch (c : BitVec 3) : Statement (.clrch c) := by
  revert c; unfold Statement encode Instr.row; decide

theorem wrtpm (imm : Word) : Statement (.wrtpm imm) := by
  unfold Statement encode Instr.row
  apply BitVec.eq_of_getLsbD_eq
  intro i hi
  rw [BitVec.getLsbD_and]
  interval_cases i <;> simp only [BitVec.getLsbD_append] <;> simp

theorem rdtmr : Statement .rdtmr := by unfold Statement; decide

theorem pull (n : BitVec 24) : Statement (.pull n) := by
  unfold Statement encode Instr.row
  apply BitVec.eq_of_getLsbD_eq
  intro i hi
  rw [BitVec.getLsbD_and]
  interval_cases i <;> simp only [BitVec.getLsbD_append] <;> simp

end Sys2Proof.Laws.EncodedWordMatchesRow
end

