-- ==== Sys2Proof/Tests/Slice0.lean ====
section
/-! SUPPORT. Tests. The expected results are those of `spec/95_test_vectors.md` or are worked out from the
rule that the comment names; none is taken from the model. After the tests come the witnesses: for each
statement with hypotheses, a state and operands that meet them, and for each of its clauses. -/

namespace Sys2Proof.Tests

open Sys2Proof Sys2Proof.Machine

set_option Elab.async false

/-! ## Helpers -/

/-- The outcome is a next state with the property. -/
def nextIs {α : Type} (o : Res α) (p : α → Bool) : Bool :=
  match o with
  | .next a => p a
  | _ => false

theorem exists_of_nextIs {α : Type} {o : Res α} {p : α → Bool} (h : nextIs o p = true) :
    ∃ a, o = .next a ∧ p a = true := by
  cases o with
  | next a => exact ⟨a, rfl, h⟩
  | fault r => cases h
  | refused r => cases h

/-- The outcome is a next state. -/
def completes {α : Type} (o : Res α) : Bool := nextIs o fun _ => true

theorem exists_next {α : Type} {o : Res α} (h : completes o = true) : ∃ a, o = .next a := by
  obtain ⟨a, ha, -⟩ := exists_of_nextIs h
  exact ⟨a, ha⟩

/-- The fault that ends an operation. -/
def faultOf {α : Type} (o : Res α) : Option Fault :=
  match o with
  | .fault r => some r
  | _ => none

theorem eq_fault {α : Type} {o : Res α} {r : Fault} (h : faultOf o = some r) : o = .fault r := by
  cases o with
  | next a => cases h
  | fault q => cases h; rfl
  | refused q => cases h

/-- A state with some registers of a slot written. -/
def put (sl : Fin 5) (rs : List (Reg × Word)) (s : State) : State :=
  rs.foldl (fun s p => s.setReg sl p.1 p.2) s

/-- `EX1` after reset and `SETVOL 255`. -/
def loud : State := { State.reset with volTab := some (exVolRow 255) }

/-- The three writes of vector I2, on channel 0. -/
def tone (s : State) : State := put 0 [(.baseFreq, 16256), (.volume, 0xFFFF), (.timeLeft, 9)] s

/-- The checks of a configuration with the volume function of `EX1`: those of its other parameters. -/
theorem wellFormed_of_ex1_tables {cfg : Config} (ht : cfg.volTabFn = ex1.volTabFn)
    (h : (cfg.ratesOk && cfg.updateStepsOk && cfg.presetsOk && cfg.masksOk && cfg.hullOk) = true) :
    cfg.wellFormed = true := by
  have hv : cfg.volTabOk = ex1.volTabOk := by
    simp only [Config.volTabOk, Config.topProportional, Config.volTop, ht]
  rw [Config.wellFormed, h, hv, ex1_volTabOk]
  rfl

/-- `EX1` with a periodic mask that feeds back into bit 15 (R125 (b)). -/
def aliveInstance : Instance :=
  ⟨{ ex1 with fbPeriodic := 0x10000 }, wellFormed_of_ex1_tables rfl (by decide +kernel)⟩

/-- `EX1` with the smallest period of the tone generator that is longer than a frame. -/
def longPeriodInstance : Instance :=
  ⟨{ ex1 with updateStepTg := 65537 }, wellFormed_of_ex1_tables rfl (by decide +kernel)⟩

/-- Volume functions of one table: one that rises, and one that never falls to silence. -/
def risingCfg : Config :=
  { ex1 with volTabFn := Vector.replicate 256 ((Vector.replicate 16 0).set 1 7) }

def flatCfg : Config := { ex1 with volTabFn := Vector.replicate 256 (Vector.replicate 16 7) }

/-! ## Well-formedness: each check refuses an ill-formed term -/

/-- R4, R211: `EX1` is accepted; K4, and a configuration with equal masks, are refused (U8, U9). -/
theorem test_create :
    State.create ex1 = .next State.reset ∧
      State.create { ex1 with sampleRate := 1, tickHz := 65537 } = .refused .illFormedInstance ∧
      State.create { ex1 with fbPeriodic := 0x12000 } = .refused .illFormedInstance :=
  ⟨dif_pos ex1_wellFormed, dif_neg (by decide +kernel), dif_neg (by decide +kernel)⟩

/-- `EX1` with the volume function whose every table is silent. -/
def quietCfg : Config := { ex1 with volTabFn := Vector.replicate 256 (Vector.replicate 16 0) }

theorem volTop_quietCfg (v : Nat) : quietCfg.volTop v = 0 := by
  unfold Config.volTop
  split
  · rename_i t h
    obtain ⟨_, rfl⟩ := Vector.getElem?_eq_some_iff.mp h
    simp [quietCfg]
  · rfl

/-- A configuration that passes every check. -/
theorem test_quiet_well_formed : quietCfg.wellFormed = true := by
  have h : quietCfg.volTabOk = true := by
    simp only [Config.volTabOk, Config.topProportional, volTop_quietCfg, Bool.and_eq_true]
    refine ⟨?_, by decide +kernel⟩
    rw [quietCfg, Vector.toList_replicate, List.all_replicate]
    decide
  simp only [Config.wellFormed, h, Bool.and_true]
  decide +kernel

theorem test_wf_refuses_rates :
    ({ ex1 with sampleRate := 0 } : Config).ratesOk = false ∧
      ({ ex1 with tickHz := 0 } : Config).ratesOk = false ∧
      ({ ex1 with sampleRate := 1, tickHz := 65537 } : Config).ratesOk = false ∧
      ({ ex1 with sampleRate := 1, tickHz := 65536 } : Config).ratesOk = true := by decide +kernel

theorem test_wf_refuses_update_steps :
    ({ ex1 with updateStepSpk := 0 } : Config).updateStepsOk = false ∧
      ({ ex1 with updateStepTg := 0 } : Config).updateStepsOk = false ∧
      ({ ex1 with updateStepSpk := 32769 } : Config).updateStepsOk = false ∧
      ({ ex1 with updateStepSpk := 32768 } : Config).updateStepsOk = true ∧
      ({ ex1 with updateStepTg := 1049602 } : Config).updateStepsOk = false ∧
      ({ ex1 with updateStepTg := 1049601 } : Config).updateStepsOk = true := by decide +kernel

theorem test_wf_refuses_equal_presets :
    ({ ex1 with decayPresetSpk := 0xF600 } : Config).presetsOk = false := by decide +kernel

theorem test_wf_refuses_masks :
    ({ ex1 with fbPeriodic := 0x12000 } : Config).masksOk = false ∧
      ({ ex1 with fbPeriodic := 0x18000 } : Config).masksOk = false := by decide +kernel

theorem hullOk_replicate (n : Nat) :
    ({ ex1 with hull := List.replicate n 0 } : Config).hullOk = decide (n ≤ 98304) := by
  simp only [Config.hullOk, List.length_replicate]

theorem test_wf_refuses_long_hull :
    ({ ex1 with hull := List.replicate 98305 0 } : Config).hullOk = false ∧
      ({ ex1 with hull := List.replicate 98304 0 } : Config).hullOk = true :=
  ⟨(hullOk_replicate 98305).trans (by decide), (hullOk_replicate 98304).trans (by decide)⟩

/-- A rising table, a table whose entry 15 is not 0, and a function whose entry 0 is not proportional to
the volume. -/
theorem test_wf_refuses_volume_tables :
    tableFalls (Vector.replicate 16 7) = false ∧
      tableFalls ((Vector.replicate 16 0).set 1 7) = false ∧
      flatCfg.topProportional = false := by decide +kernel

/-- R90: the four control commands have no place in a service call; a reserved encoding acts as `NOP`. -/
theorem test_wf_refuses_control_commands_in_service :
    serviceWordAllowed 0x01000000 = false ∧ serviceWordAllowed 0x02000001 = false ∧
      serviceWordAllowed 0x030000FF = false ∧ serviceWordAllowed 0x09000001 = false ∧
      serviceWordAllowed 0x04130001 = true ∧ serviceWordAllowed 0x0A000000 = true := by decide

/-! ## Decoding: words written out bit by bit from the formats of R60 and the codes of R61 -/

theorem test_decode_nop : decode 0b00000000_000_00000_00000000_0000000_0 = .ok .nop := by decide

theorem test_decode_reset : decode 0b00000001_000_00000_00000000_0000000_0 = .ok .reset := by decide

theorem test_decode_mode :
    decode 0b00000010_000_00000_00000000_0000000_0 = .ok (.mode .spk) ∧
      decode 0b00000010_000_00000_00000000_0000000_1 = .ok (.mode .tg) := by decide

theorem test_decode_setvol :
    decode 0b00000011_000_00000_00000000_1000000_0 = .ok (.setvol 128) := by decide

theorem test_decode_wrch :
    decode 0b00000100_010_00010_00001010_1001011_1 = .ok (.wrch 2 2 0x0A97) := by decide

theorem test_decode_rdch :
    decode 0b00000101_111_00101_00000000_0000000_0 = .ok (.rdch 7 5) := by decide

theorem test_decode_clrch :
    decode 0b00000110_101_00000_00000000_0000000_0 = .ok (.clrch 5) := by decide

theorem test_decode_wrtpm :
    decode 0b00000111_000_00000_10000000_0000001_0 = .ok (.wrtpm 0x8002) := by decide

theorem test_decode_rdtmr : decode 0b00001000_000_00000_00000000_0000000_0 = .ok .rdtmr := by decide

theorem test_decode_pull :
    decode 0b00001001_100_00000_00000000_1011101_1 = .ok (.pull 0x8000BB) := by decide

/-- The reserved encodings of `spec/95_test_vectors.md` section 3. -/
theorem test_decode_reserved :
    decode 0x0A000000 = .error (.undefinedOp 0x0A) ∧ decode 0xFF000000 = .error (.undefinedOp 0xFF) ∧
      decode 0x00000001 = .error (.reservedBit 0) ∧ decode 0x02000002 = .error (.reservedBit 2) ∧
      decode 0x03000100 = .error (.reservedBit 3) ∧ decode 0x05000001 = .error (.reservedBit 5) ∧
      decode 0x06010000 = .error (.reservedBit 6) ∧ decode 0x07010000 = .error (.reservedBit 7) := by
  decide

theorem test_table_word :
    decodeTableWord 32 0x04C51234 = some (.wrch 6 5 0x1234) ∧ decodeTableWord 32 0x07010000 = none := by
  decide

/-! ## Commands -/

/-- R80, R65: `NOP` and a reserved word leave the registers and take one word from the port. -/
theorem test_nop_step :
    nextIs (step { tone loud with port := [0x00000000, 0x09000001] }) (fun t =>
      t.port == [0x09000001] && t.ch == (tone loud).ch && t.out == []) = true ∧
    nextIs (step { tone loud with port := [0x00000001] }) (fun t => t.port == []) = true := by
  decide +kernel

/-- I7. -/
theorem test_reset :
    nextIs (exec .reset { tone loud with rng := 1, level := 612, nextTick := 12049737, profile := .spk })
      (fun t => t.reg 0 .volume == 0 && t.rng == 0x0F35 && t.level == 0 && t.nextTick == 0 &&
        t.profile == .tg && t.volTab.isNone && t.ticksPerMusicTimer == 65535 && t.out == []) = true := by
  decide +kernel

/-- I5. -/
theorem test_mode :
    nextIs (exec (.mode .spk) (((tone loud).setTimer 0 3084564).togglePhase 0 |>.setLevel 612))
      (fun t => t.profile == .spk && t.phase[0] == false && t.timer 0 == 0 && t.level == 612 &&
        t.rng == 0x0F35 && t.volTab.isSome && t.reg 0 .timeLeft == 9) = true := by
  decide +kernel

/-- I1: the row of `v = 255`. -/
theorem test_setvol :
    nextIs (exec (.setvol 255) State.reset) (fun t =>
      t.volTab.map Vector.toList == some [10880, 8642, 6864, 5452, 4331, 3440, 2732, 2170, 1724, 1369,
        1087, 864, 686, 545, 433, 0]) = true := by
  decide +kernel

/-- E1. -/
theorem test_wrch_sentinel :
    nextIs (exec (.wrch 6 5 0x1234) State.reset) (fun t =>
      t.reg 4 .volume == 0x1234 && t.reg 0 .volume == 0 && t.reg 2 .volume == 0) = true := by
  decide +kernel

/-- E3. -/
theorem test_wrch_reserved_index :
    nextIs (exec (.wrch 1 25 0x5555) State.reset) (fun t => t.ch == State.reset.ch) = true := by
  decide +kernel

/-- E2. -/
theorem test_rdch :
    nextIs (exec (.rdch 1 5) (put 1 [(.volume, 0x4321)] State.reset))
      (fun t => t.results == [.half 0x4321]) = true ∧
    nextIs (exec (.rdch 0 5) (put 1 [(.volume, 0x4321)] State.reset))
      (fun t => t.results == [.half 0]) = true := by
  decide +kernel

/-- E4. -/
theorem test_clrch_sentinel :
    nextIs (exec (.clrch 5) (put 4 [(.volume, 0x1234)] (tone loud))) (fun t =>
      t.reg 4 .volume == 0 && t.reg 0 .volume == 0xFFFF) = true := by
  decide +kernel

/-- E5. -/
theorem test_clrch :
    nextIs (exec (.clrch 2) (put 2 [(.scratch3, 7)] State.reset))
      (fun t => t.reg 2 .scratch3 == 0) = true := by
  decide +kernel

/-- R88: the counter is not reset by the write. -/
theorem test_wrtpm :
    nextIs (exec (.wrtpm 2) { State.reset with musicCtr := 7 })
      (fun t => t.ticksPerMusicTimer == 2 && t.musicCtr == 7) = true := by
  decide +kernel

/-- R89. -/
theorem test_rdtmr :
    nextIs (exec .rdtmr { State.reset with musicTimer := 0x10002 })
      (fun t => t.results == [.word 0x10002]) = true := by
  decide +kernel

/-- I4. -/
theorem test_pull :
    nextIs (exec (.pull 3) (tone loud)) (fun t =>
      t.out == [⟨212, 212⟩, ⟨416, 416⟩, ⟨612, 612⟩] && t.timer 0 == 3084564 && t.phase[0] &&
        t.level == 612 && t.nextTick == 12049737 && t.reg 0 .timeLeft == 8 &&
        t.reg 0 .freq == 16256) = true := by
  decide +kernel

/-- I2. -/
theorem test_pull_stops : exec (.pull 1) (tone State.reset) = .fault .volTabUnset :=
  eq_fault (by decide +kernel)

/-! ## Operations of the tick and the frame -/

/-- H1, tick 1. -/
theorem test_hull_attack :
    nextIs (tick (put 0 [(.hullCurve, 12), (.hullCounter, 1), (.noteLength, 25), (.timeLeft, 40)]
        State.reset)) (fun t =>
      t.reg 0 .volume == 60000 && t.reg 0 .volumeDelta == 0xFC18 && t.reg 0 .hullOffset == 8 &&
        t.reg 0 .hullCounter == 20 && t.reg 0 .noteLength == 24 && t.reg 0 .timeLeft == 39) = true := by
  decide +kernel

/-- M1, tick 4, from the row of tick 3: the entry is -100. -/
theorem test_vibrato :
    nextIs (tick (put 0 [(.baseFreq, 1000), (.freqmodTable, 1), (.freqmodCursor, 72),
        (.freqmodIncr, 24), (.freqmodModulo, 128), (.freqmodMult, 512), (.timeLeft, 97)]
        State.reset)) (fun t => t.reg 0 .freqmodCursor == 96 && t.reg 0 .freq == 800) = true := by
  decide +kernel

/-- R112 corner case 2, `tdiv(-100*300, 256) = -117`, and corner case 4. -/
theorem test_modulated :
    modulated 0 (-100) 300 = 65419 ∧ modulated 0 (-50) 5 = 0 ∧ modulated 0 (-1) 256 = 65535 := by
  decide

/-- L5. -/
theorem test_lfsr :
    lfsrNext 0x12000 0x0001 = 0x9000 ∧ lfsrNext 0x08000 0x8001 = 0x0000 ∧
      lfsrNext 0x12000 0xFFFF = 0xEFFF ∧ lfsrNext 0x08000 0x8000 = 0x4000 := by
  decide

/-- O7 frame 12, from the row of frame 11: the edge takes the phase low inside the frame. -/
theorem test_noise_edge_in_frame :
    nextIs (tgMix ((put 3 [(.freq, 256), (.volume, 0xFFFF), (.timeLeft, 100)]
        { loud with rng := 0x4BCD }).setTimer 3 40320 |>.togglePhase 3)) (fun x =>
      x.2 == 1253 && x.1.timer 3 == 388160 && x.1.phase[3] == false && x.1.rng == 0xB5E6) = true := by
  decide +kernel

/-- R151, the examples. -/
theorem test_filter :
    filtered 62976 0 32767 = 1279 ∧ filtered 62976 1279 32767 = 2509 ∧
      filtered 62976 0 (-32768) = -1280 ∧ filtered 62976 (-1) 0 = -1 := by
  decide

/-- R153, the examples. -/
theorem test_decay :
    decayFor 0xFA00 22050 = 62500 ∧ decayFor 0xF600 11025 = 55880 ∧ decayFor 0xA000 44100 = 40960 := by
  decide

/-- P5, the first service: the host reads 2 and arms the note; a command that R90 shuts out is refused. -/
theorem test_service :
    nextIs (serve (.seqReq 0) { put 0 [(.scratch0, 2)] State.reset with
        answers := [[0x05130000, 0x04130001, 0x04000002]] }) (fun t =>
      t.results == [.half 2] && t.reg 0 .scratch0 == 1 && t.reg 0 .timeLeft == 2 &&
        t.events == [⟨0, .seqReq 0⟩] && t.answers == []) = true ∧
    serve .idle { State.reset with answers := [[0x09000001]] } = .refused .serviceViolation :=
  ⟨by decide +kernel, rfl⟩

/-! ## Witnesses: each statement's hypotheses are met, at the boundaries of its clauses -/

theorem witness_EncodeOfDecode : decode 0x04E0FFFF = .ok (.wrch 7 0 0xFFFF) := by decide

theorem witness_DecodeFollowsOpcodeRows :
    (⟨"MODE", 0x02000000, 0xFFFFFFFE⟩ : OpRow) ∈ opRows ∧
      (⟨"MODE", 0x02000000, 0xFFFFFFFE⟩ : OpRow).hits 0x02000001 = true ∧
      decode 0x02000001 = .ok (.mode .tg) := by decide

theorem witness_ReservedWordActsAsNop :
    ∃ s : State, ∃ w ws, s.port = w :: ws ∧ ∀ row ∈ opRows, row.hits w = false :=
  ⟨{ loud with port := [0x0A000000] }, 0x0A000000, [], rfl, by decide⟩

theorem witness_StepRunsDecodedCommand :
    ∃ s : State, ∃ w ws i, s.port = w :: ws ∧ decode w = .ok i :=
  ⟨{ loud with port := [0x09000001] }, 0x09000001, [], .pull 1, rfl, by decide⟩

theorem witness_PresentedCommandRunsNext : State.reset.port = [] := rfl

theorem witness_SetvolTableFalls : (3 : Fin 16) ≤ 3 ∧ (0 : Fin 16) ≤ 15 ∧ (0 : BitVec 8) = 0 := by
  decide

theorem witness_RdchReturnsRegister :
    Reg.scratch3.index.val = (22 : BitVec 5).toNat ∧ Reg.timeLeft.index.val = (0 : BitVec 5).toNat ∧
      23 ≤ (23 : BitVec 5).toNat ∧ 23 ≤ (31 : BitVec 5).toNat := by decide

theorem witness_WrittenPatternIsReadBack :
    slotOf 6 = slotOf 7 ∧ (22 : BitVec 5).toNat < 23 := by decide

theorem witness_OutOfRangeChannelIsSentinel :
    4 ≤ (4 : BitVec 3).toNat ∧ 4 ≤ (7 : BitVec 3).toNat ∧
      Reg.volume.index.val = (5 : BitVec 5).toNat := by decide

theorem witness_ReservedRegisterIndexIsInert : 23 ≤ (23 : BitVec 5).toNat := by decide

theorem witness_OperandTables :
    23 ≤ (23 : BitVec 5).toNat ∧ 23 ≤ (31 : BitVec 5).toNat ∧ regOf 22 = some .scratch3 := by decide

/-- Both clauses of R168, at the boundary: with a period of 2 the counter reaches it from 1 and not from 0;
the last count; a tick that completes. -/
theorem witness_MusicTimerStepsOncePerTick :
    (∃ s : State, s.ticksPerMusicTimer.toNat ≤ (s.musicCtr.toNat + 1) % 65536 ∧
      s.ticksPerMusicTimer = 2) ∧
    (∃ s : State, (s.musicCtr.toNat + 1) % 65536 < s.ticksPerMusicTimer.toNat ∧
      s.ticksPerMusicTimer = 2) ∧
    ∃ s t : State, s.answers = [] ∧ tick s = .next t :=
  ⟨⟨{ loud with ticksPerMusicTimer := 2, musicCtr := 1 }, by decide, rfl⟩,
    ⟨{ loud with ticksPerMusicTimer := 2, musicCtr := 0 }, by decide, rfl⟩,
    State.reset, (exists_next (by decide +kernel)).imp fun _ h => ⟨rfl, h⟩⟩

theorem witness_NoteOffStartsRelease :
    (∃ s : State, (s.reg 0 .noteLength).toNat = 0) ∧ (∃ s : State, 2 ≤ (s.reg 0 .noteLength).toNat) ∧
      ∃ s : State, (s.reg 0 .noteLength).toNat = 1 :=
  ⟨⟨loud, by decide +kernel⟩, ⟨put 0 [(.noteLength, 2)] loud, by decide +kernel⟩,
    put 0 [(.noteLength, 1)] loud, by decide +kernel⟩

theorem witness_HullStepCountsDown :
    (∃ s : State, (s.reg 3 .hullCounter).toNat = 0) ∧ (∃ s : State, 2 ≤ (s.reg 3 .hullCounter).toNat) ∧
      ∃ s : State, (s.reg 3 .hullCounter).toNat = 1 :=
  ⟨⟨loud, by decide +kernel⟩, ⟨put 3 [(.hullCounter, 2)] loud, by decide +kernel⟩,
    put 3 [(.hullCounter, 1)] loud, by decide +kernel⟩

/-- The last pair of `EX_HULL` is a ramp pair (H3); the first of curve B is a hold pair. -/
theorem witness_HullEvalTakesOnePair :
    (∃ (s : State) (p : Nat), p = (s.reg 0 .hullCurve).toNat + (s.reg 0 .hullOffset).toNat / 2 ∧
      s.cfg.hull[p]? = some 0 ∧ s.cfg.hull[p + 1]? = some 0 ∧ (0 : Word) ≠ 0xFFFF ∧
      (s.reg 0 .hullOffset).toNat + 4 ≤ 65535) ∧
    ∃ (s : State) (p : Nat), p = (s.reg 0 .hullCurve).toNat + (s.reg 0 .hullOffset).toNat / 2 ∧
      s.cfg.hull[p]? = some 60000 ∧ s.cfg.hull[p + 1]? = some 0xFFFF ∧
      (s.reg 0 .hullOffset).toNat + 4 ≤ 65535 :=
  ⟨⟨put 0 [(.hullCurve, 26)] loud, 26, by decide +kernel⟩,
    put 0 [(.hullCurve, 12)] loud, 12, by decide +kernel⟩

/-- Curve A of `EX_HULL`. -/
theorem witness_TerminalHoldParks :
    ∃ (s : State) (p : Nat), p = (s.reg 1 .hullCurve).toNat + (s.reg 1 .hullOffset).toNat / 2 ∧
      s.cfg.hull[p]? = some 3 ∧ s.cfg.hull[p + 1]? = some 0xFFFF ∧ s.cfg.hull[p + 2]? = some 0 ∧
      s.cfg.hull[p + 3]? = some 0 ∧ (s.reg 1 .hullOffset).toNat + 8 ≤ 65535 :=
  ⟨loud, 0, by decide +kernel⟩

/-- Each way to `HullBounds`, at its boundary (H3). -/
theorem witness_HullEvalEndsOrFaults :
    (∃ s : State, s.cfg.hull.length ≤
      (s.reg 0 .hullCurve).toNat + (s.reg 0 .hullOffset).toNat / 2 + 1) ∧
    ∃ s : State, 65535 < (s.reg 0 .hullOffset).toNat + 4 :=
  ⟨⟨put 0 [(.hullCurve, 27)] loud, by decide +kernel⟩,
    put 0 [(.hullOffset, 65532)] loud, by decide +kernel⟩

/-- The last entry of `EX_FM`, and the first index past it. -/
theorem witness_EffectiveFrequencyFollowsTable :
    (∃ s : State, 8 = (s.reg 0 .freqmodTable).toNat + (s.reg 0 .freqmodCursor).toNat / 16 ∧
      s.cfg.fm[8]? = some (-50 : BitVec 8)) ∧
    ∃ s : State, 9 = (s.reg 0 .freqmodTable).toNat + (s.reg 0 .freqmodCursor).toNat / 16 ∧
      s.cfg.fm.length ≤ 9 :=
  ⟨⟨put 0 [(.freqmodTable, 1), (.freqmodCursor, 127)] loud, by decide +kernel⟩,
    put 0 [(.freqmodTable, 9)] loud, by decide +kernel⟩

/-- `IDLE` raised, and withheld in each way; an active and a skipped channel in one state, whose tick
completes; a channel's tick that does. -/
theorem witness_ChannelTickRunsSevenOperations :
    (∃ s : State, true = true ∧ ∀ c, s.reg (chanSlot c) .timeLeft = 0) ∧
    (false = false ∧ ∃ s : State, ∃ c, s.reg (chanSlot c) .timeLeft ≠ 0) ∧
    (∃ s t : State, s.answers = [] ∧ tick s = .next t ∧ s.reg (chanSlot 0) .timeLeft ≠ 0 ∧
      s.reg (chanSlot 1) .timeLeft = 0) ∧
    ∃ s t : State, s.answers = [] ∧ chTick 0 s = .next t :=
  ⟨⟨loud, rfl, by decide +kernel⟩, ⟨rfl, tone loud, 0, by decide +kernel⟩,
    ⟨tone loud, (exists_next (by decide +kernel)).imp fun _ h =>
      ⟨rfl, h, by decide +kernel, by decide +kernel⟩⟩,
    tone loud, (exists_next (by decide +kernel)).imp fun _ h => ⟨rfl, h⟩⟩

theorem witness_LfsrInvertibleIffTopTap :
    ex1.fbWhite.getLsbD 16 = true ∧ (0x0F35 : Word) ≠ 0 ∧ ex1.fbPeriodic.getLsbD 16 = false := by decide

theorem witness_SilentNoiseKeepsRegister :
    (∃ s t : State, s.profile = .spk ∧ frameStep s = .next t) ∧
      ∃ s t : State, s.profile = .tg ∧ sounding s 3 = false ∧ frameStep s = .next t :=
  ⟨⟨{ tone loud with profile := .spk }, (exists_next (by decide +kernel)).imp fun _ h => ⟨rfl, h⟩⟩,
    tone loud, (exists_next (by decide +kernel)).imp fun _ h => ⟨rfl, by decide +kernel, h⟩⟩

/-- From a countdown of 0, melodic and noise. -/
theorem witness_OscillatorStaysInFrame :
    (∃ (s t : State) (a : Int), 0 ≤ s.timer 0 ∧ osc 0 254 10880 none (s, 0) = .next (t, a)) ∧
      ∃ (s t : State) (a : Int), 0 ≤ s.timer 3 ∧
        osc 3 0 10880 (some 0x12000) (s, 32767) = .next (t, a) := by
  refine ⟨⟨loud, ?_⟩, loud, ?_⟩
  · obtain ⟨⟨t, a⟩, h⟩ := exists_next (o := osc 0 254 10880 none (loud, 0)) (by decide +kernel)
    exact ⟨t, a, by decide +kernel, h⟩
  · obtain ⟨⟨t, a⟩, h⟩ := exists_next (o := osc 3 0 10880 (some 0x12000) (loud, 32767))
      (by decide +kernel)
    exact ⟨t, a, by decide +kernel, h⟩

/-- No edge, at the smallest countdown that has none; one edge, at both ends of its range, with the
smallest period that keeps a second one out of the frame; two edges, the second at the frame's end (R132
corner case 2), melodic and noise. -/
theorem witness_OscillatorFrameRunsItsEdges :
    (∃ (s : State) (f period : Nat),
      period = (if f = 0 then updateStep s.cfg s.profile else updateStep s.cfg s.profile * f) ∧
      0 < period ∧ period < 2 ^ 31 ∧ 65536 < (s.setTimer 0 65537).timer 0 ∧
      (0 ≤ (s.setTimer 0 65536).timer 0 ∧ (s.setTimer 0 65536).timer 0 ≤ 65536 ∧
        65536 < (s.setTimer 0 65536).timer 0 + period) ∧
      (0 ≤ s.timer 0 ∧ s.timer 0 ≤ 65536 ∧ 65536 < s.timer 0 + period)) ∧
    ∃ (s : State) (f period k : Nat) (rest : Int), k = 2 ∧
      period = (if f = 0 then updateStep s.cfg s.profile else updateStep s.cfg s.profile * f) ∧
      0 < period ∧ period < 2 ^ 31 ∧ 0 ≤ s.timer 0 ∧ rest = s.timer 0 - 65536 + k * period ∧
      s.timer 0 ≤ 65536 ∧ 0 < rest ∧ rest ≤ period ∧
      ((none : Option Mask) = none ∧ ∃ m : Mask, some m = some m) :=
  ⟨⟨State.resetOf longPeriodInstance, 1, 65537, by decide +kernel⟩,
    loud.setTimer 0 (65536 - 12918), 0, 12918, 2, 12918, rfl, by decide +kernel, by decide,
    by decide, by decide +kernel, by decide +kernel, by decide +kernel, by decide, by decide, rfl, 0, rfl⟩

theorem witness_UnsetTableFaultsOnlyWhenSounding :
    (∃ s : State, s.volTab = none ∧ ∃ c, sounding s c = true) ∧
      ∃ s : State, ∀ c, sounding s c = false :=
  ⟨⟨tone State.reset, by decide +kernel, 0, by decide +kernel⟩, State.reset, by decide +kernel⟩

/-- Three equal channels; channels 0 and 2 equal with channel 1 silent; no two equal. -/
theorem witness_PhaseSyncAlignsEqualChannels :
    ∃ eq : State → Fin 4 → Fin 4 → Prop,
      (∀ s i j, eq s i j ↔ sounding s i = true ∧ sounding s j = true ∧
        (s.reg (chanSlot i) .freq).toNat / 64 = (s.reg (chanSlot j) .freq).toNat / 64) ∧
      (∃ s, eq s 1 0 ∧ eq s 2 1) ∧ (∃ s, ¬ eq s 2 1 ∧ eq s 2 0) ∧
      ∃ s, ¬ eq s 1 0 ∧ ¬ eq s 2 1 ∧ ¬ eq s 2 0 :=
  ⟨_, fun _ _ _ => Iff.rfl,
    ⟨put 2 [(.volume, 1), (.timeLeft, 1)] (put 1 [(.volume, 1), (.timeLeft, 1)] (tone loud)),
      by decide +kernel⟩,
    ⟨put 2 [(.volume, 1), (.timeLeft, 1)] (tone loud), by decide +kernel⟩, loud, by decide +kernel⟩

theorem witness_SilentChannelDrains :
    (∃ s t : State, s.profile = .tg ∧ sounding s 1 = false ∧ frameStep s = .next t) ∧
      (∃ s t : State, s.profile = .spk ∧ (1 : Fin 4) ≠ 0 ∧ frameStep s = .next t) ∧
      ∃ s t : State, s.profile = .spk ∧ (∀ d, sounding s d = false) ∧ frameStep s = .next t :=
  ⟨⟨tone loud, (exists_next (by decide +kernel)).imp fun _ h => ⟨rfl, by decide +kernel, h⟩⟩,
    ⟨{ tone loud with profile := .spk },
      (exists_next (by decide +kernel)).imp fun _ h => ⟨rfl, by decide, h⟩⟩,
    { loud with profile := .spk },
      (exists_next (by decide +kernel)).imp fun _ h => ⟨rfl, by decide +kernel, h⟩⟩

/-- The tone generator's channels: silent, melodic at both ends of the attenuation, noise, without a
table; the speaker's: the first and the last winner, without a table, none. -/
theorem witness_MixRendersSoundingChannels :
    (∃ s : State, sounding s 0 = false) ∧
    (∃ (s : State) (tab : VolTab) (i : Fin 16), sounding s 0 = true ∧ (0 : Fin 4) ≠ 3 ∧
      s.volTab = some tab ∧ i.val + (s.reg (chanSlot 0) .volume).toNat / 4096 = 15 ∧ i = 0) ∧
    (∃ (s : State) (tab : VolTab) (i : Fin 16), sounding s 2 = true ∧ (2 : Fin 4) ≠ 3 ∧
      s.volTab = some tab ∧ i.val + (s.reg (chanSlot 2) .volume).toNat / 4096 = 15 ∧ i = 15) ∧
    (∃ (s : State) (tab : VolTab) (i : Fin 16) (f : Nat), sounding s 3 = true ∧ s.volTab = some tab ∧
      i.val + (s.reg (chanSlot 3) .volume).toNat / 4096 = 15 ∧
      f = (s.reg (chanSlot 3) .freq).toNat / 64 ∧ f % 4 = 3 ∧ f / 4 % 2 = 1) ∧
    (∃ s : State, sounding s 0 = true ∧ s.volTab = none) ∧
    (∃ (s : State) (tab : VolTab), sounding s 0 = true ∧ (∀ j : Fin 4, j < 0 → sounding s j = false) ∧
      s.volTab = some tab) ∧
    (∃ (s : State) (tab : VolTab), sounding s 3 = true ∧ (∀ j : Fin 4, j < 3 → sounding s j = false) ∧
      s.volTab = some tab) ∧
    (∃ s : State, (∃ w, sounding s w = true) ∧ s.volTab = none) ∧
    ∃ s : State, ∀ c, sounding s c = false :=
  ⟨⟨loud, by decide +kernel⟩,
    ⟨tone loud, exVolRow 255, 0, by decide +kernel, by decide, rfl, by decide +kernel, rfl⟩,
    ⟨put 2 [(.volume, 1), (.timeLeft, 1)] loud, exVolRow 255, 15, by decide +kernel, by decide, rfl,
      by decide +kernel, rfl⟩,
    ⟨put 3 [(.volume, 1), (.timeLeft, 1), (.freq, 448)] loud, exVolRow 255, 15, 7, by decide +kernel,
      rfl, by decide +kernel⟩,
    ⟨tone State.reset, by decide +kernel, by decide +kernel⟩,
    ⟨tone loud, exVolRow 255, by decide +kernel, by decide +kernel, rfl⟩,
    ⟨put 3 [(.volume, 1), (.timeLeft, 1)] loud, exVolRow 255, by decide +kernel, by decide +kernel, rfl⟩,
    ⟨tone State.reset, ⟨0, by decide +kernel⟩, by decide +kernel⟩, loud, by decide +kernel⟩

theorem witness_FilterStepIsWeightedMean :
    (-32768 ≤ (-32768 : Int) ∧ (-32768 : Int) ≤ 32767) ∧ -32768 ≤ (32767 : Int) ∧
      30000 ≤ ex1.sampleRate ∧ 30000 ≤ 30000 ∧ (0 < 29999 ∧ 29999 < 30000) ∧ 0 < 1 ∧ 1 < 30000 := by
  decide +kernel

theorem witness_FrameStepEmitsOneFrame :
    (∃ (s u : State) (acc : Int), s.profile = .tg ∧ mix s = .next (u, acc)) ∧
    (∃ (s u : State) (acc : Int), s.profile = .spk ∧ mix s = .next (u, acc)) ∧
      ∃ s t : State, frameStep s = .next t := by
  refine ⟨⟨tone loud, ?_⟩, ⟨{ tone loud with profile := .spk }, ?_⟩, tone loud,
    exists_next (by decide +kernel)⟩
  · obtain ⟨⟨u, acc⟩, h⟩ := exists_next (o := mix (tone loud)) (by decide +kernel)
    exact ⟨u, acc, rfl, h⟩
  · obtain ⟨⟨u, acc⟩, h⟩ := exists_next (o := mix { tone loud with profile := .spk })
      (by decide +kernel)
    exact ⟨u, acc, rfl, h⟩

theorem witness_TickLeavesGeneratorsAlone : ∃ s t : State, tick s = .next t :=
  ⟨tone loud, exists_next (by decide +kernel)⟩

theorem witness_TickWithNoActiveChannel : ∃ s : State, ∀ c, active s c = false :=
  ⟨loud, by decide +kernel⟩

theorem witness_DurationExpiryRequestsSequencer :
    (∃ s : State, s.answers = [] ∧ ∀ c, s.reg (chanSlot c) .timeLeft = 0) ∧
    (∃ (s : State) (a : List CmdWord) (as : List (List CmdWord)), s.answers = a :: as) ∧
    (∃ e, decode 0x0A000000 = .error e) ∧
    (∃ i, decode 0x04130001 = .ok i ∧ i ≠ .reset ∧ (∀ p, i ≠ .mode p) ∧ (∀ v, i ≠ .setvol v) ∧
      ∀ n, i ≠ .pull n) ∧
    decode 0x01000000 = .ok .reset ∧ decode 0x02000001 = .ok (.mode .tg) ∧
    decode 0x030000FF = .ok (.setvol 255) ∧ decode 0x09000001 = .ok (.pull 1) ∧
    (∃ s : State, 2 ≤ (s.reg (chanSlot 3) .timeLeft).toNat) ∧
      (∃ s : State, (s.reg (chanSlot 3) .timeLeft).toNat = 1 ∧ s.answers = []) ∧
      ∃ (s : State) (a : List CmdWord) (as : List (List CmdWord)),
        (s.reg (chanSlot 3) .timeLeft).toNat = 1 ∧ s.answers = a :: as :=
  ⟨⟨loud, rfl, by decide +kernel⟩, ⟨{ loud with answers := [[]] }, [], [], rfl⟩,
    ⟨.undefinedOp 0x0A, by decide⟩, ⟨.wrch 0 19 1, by decide, nofun, nofun, nofun, nofun⟩,
    by decide, by decide, by decide, by decide, ⟨put 3 [(.timeLeft, 2)] loud, by decide +kernel⟩,
    ⟨put 3 [(.timeLeft, 1)] loud, by decide +kernel, rfl⟩,
    { put 3 [(.timeLeft, 1)] loud with answers := [[0x04600009]] }, [0x04600009], [],
      by decide +kernel, rfl⟩

/-- A tick in which channel 0 expires and nothing is left active. -/
theorem witness_TickRaisesEventsInOrder :
    ∃ s t : State, s.answers = [] ∧ tick s = .next t ∧ s.reg (chanSlot 0) .timeLeft = 1 ∧
      ∀ c, (s.reg (chanSlot c) .timeLeft).toNat ≤ 1 :=
  ⟨put 0 [(.timeLeft, 1)] loud, (exists_next (by decide +kernel)).imp fun _ h =>
    ⟨rfl, h, by decide +kernel, by decide +kernel⟩⟩

/-- `EX1` with 65536 frames a tick: the reload of an empty `NEXT_TICK` just does not fit 32 bits. -/
def slowTickInstance : Instance :=
  ⟨{ ex1 with sampleRate := 65536, tickHz := 1 }, wellFormed_of_ex1_tables rfl (by decide +kernel)⟩

/-- The last frame before a tick, the last but one, and a tick that
is due; a reload that fits, and one that just does not. -/
theorem witness_PullEmitsExactlyN :
    (∃ s t : State, 65536 ≤ s.nextTick.toNat ∧ s.nextTick.toNat - 65536 < 65536 ∧
      exec (.pull 1) s = .next t) ∧
    (∃ s t : State, 65536 ≤ s.nextTick.toNat ∧ ¬ s.nextTick.toNat - 65536 < 65536 ∧
      exec (.pull 1) s = .next t) ∧
    (∃ s t : State, s.nextTick.toNat < 65536 ∧ exec (.pull 1) s = .next t ∧
      s.nextTick.toNat + tickStep s.cfg < 2 ^ 32) ∧
    (∃ s : State, 2 ^ 32 ≤ s.nextTick.toNat + tickStep s.cfg) ∧
    ∃ s t : State, exec (.pull 2) s = .next t :=
  ⟨⟨{ tone loud with nextTick := 65536 }, (exists_next (by decide +kernel)).imp fun _ h =>
      ⟨by decide, by decide, h⟩⟩,
    ⟨{ tone loud with nextTick := 131072 }, (exists_next (by decide +kernel)).imp fun _ h =>
      ⟨by decide, by decide, h⟩⟩,
    ⟨{ tone loud with nextTick := 65535 }, (exists_next (by decide +kernel)).imp fun _ h =>
      ⟨by decide, h, by decide +kernel⟩⟩,
    ⟨State.resetOf slowTickInstance, by decide +kernel⟩, tone loud, exists_next (by decide +kernel)⟩

/-- K4: a rate of 1 frame a second and 65537 ticks. -/
theorem witness_PullZeroAndStuckClock :
    ∃ cfg : Config, tickStep cfg = 0 :=
  ⟨{ ex1 with sampleRate := 1, tickHz := 65537 }, by decide +kernel⟩

theorem tickFits_ex1 : tickFits ex1 := by unfold tickFits; decide +kernel

theorem witness_PullIsBatchIndependent : 16777214 + 1 < 2 ^ 24 := by decide

/-- An answer that starts the note of vector H1 on channel 0 again: cursor, counter, note and duration. -/
def restart : List CmdWord := [0x040B000C, 0x040C0000, 0x040D0001, 0x040A0019, 0x04000028]

/-- The note of vector H1 with the vibrato of vector M1: the envelope of channel 0 runs on curve B, its
note-off is to come, its cursor moves in curve V, and the host will start it again. -/
def readyState : State :=
  { put 0 [(.hullCurve, 12), (.hullCounter, 1), (.noteLength, 25), (.freqmodTable, 1),
      (.freqmodIncr, 24), (.freqmodModulo, 128), (.freqmodMult, 512)] (tone loud) with
    answers := [restart] }

/-- Curve B parks from its start and from its release (R105). -/
theorem parksFrom_curveB : parksFrom ex1.hull 12 0 ∧ parksFrom ex1.hull 12 16 :=
  ⟨⟨2, by decide +kernel⟩, 3, by decide +kernel⟩

/-- What the words of `restart` do. -/
theorem serviceWords_restart (u : State) :
    serviceWords restart u = .next ((((((u.setReg 0 .hullCurve 12).setReg 0 .hullOffset 0).setReg 0
      .hullCounter 1).setReg 0 .noteLength 25).setReg 0 .timeLeft 40)) := rfl

theorem answersKeepCurves_readyState : AnswersKeepCurves readyState := by
  intro a ha u v hu hs hv c
  obtain rfl : a = restart := by simpa [readyState] using ha
  rw [serviceWords_restart] at hv
  injection hv with hv
  subst hv
  have hc : u.cfg = ex1 := by rw [State.cfg_def, hu]; rfl
  obtain ⟨h₁, h₂, h₃⟩ := hs c
  by_cases h : chanSlot c = 0
  · simp only [EnginesSafe, State.reg_setReg, h] at h₃ ⊢
    simp only [State.cfg_def, State.setReg_inst] at hc h₃ ⊢
    rw [hc] at h₃ ⊢
    exact ⟨fun _ => parksFrom_curveB.1, fun _ => parksFrom_curveB.2, by simpa using h₃⟩
  · simp only [EnginesSafe, State.reg_setReg, h, false_and, if_false]
    simp only [State.cfg_def, State.setReg_inst] at h₁ h₂ h₃ ⊢
    exact ⟨h₁, h₂, h₃⟩

theorem witness_PullCompletesWhenReady :
    PullReady readyState ∧ active readyState 0 = true ∧ readyState.reg 0 .hullCounter ≠ 0 ∧
      readyState.reg 0 .noteLength ≠ 0 ∧ readyState.answers ≠ [] := by
  have hc : readyState.cfg = ex1 := rfl
  refine ⟨⟨by decide +kernel, by decide +kernel, answersKeepCurves_readyState, fun c =>
    ⟨fun h => ?_, fun h => ?_, ?_⟩⟩, by decide +kernel, by decide +kernel, by decide +kernel, nofun⟩
  · obtain rfl : c = 0 := by revert h; revert c; decide +kernel
    exact parksFrom_curveB.1
  · obtain rfl : c = 0 := by revert h; revert c; decide +kernel
    exact parksFrom_curveB.2
  · revert c; decide +kernel

/-- What `PULL 1` has left of the divider (K2), with another `PULL 1` to come. -/
def oneFrameIn : State :=
  { loud with out := [⟨0, 0⟩], nextTick := 12180809, ticks := 1, port := [0x09000001] }

theorem witness_StepKeepsClockExact :
    ∃ s t : State, tickFits s.cfg ∧ ClockInv s ∧ step s = .next t ∧ one ≤ tickStep s.cfg ∧
      TickAhead s ∧ s.out ≠ [] := by
  obtain ⟨t, ht⟩ := exists_next (o := step oneFrameIn) (by decide +kernel)
  exact ⟨oneFrameIn, t, tickFits_ex1, by unfold ClockInv; decide +kernel, ht, by decide +kernel,
    by unfold TickAhead; decide +kernel, List.cons_ne_nil _ _⟩

theorem witness_StepKeepsCountdownsNonneg :
    ∃ s t : State, OscInv s ∧ step s = .next t := by
  obtain ⟨t, ht⟩ := exists_next (o := step { tone loud with port := [0x09000001] }) (by decide +kernel)
  exact ⟨_, t, by unfold OscInv; decide +kernel, ht⟩

theorem witness_StepKeepsLevelLastFrame :
    ∃ s t : State, OutputInv s ∧ step s = .next t ∧ s.out ≠ [] := by
  obtain ⟨t, ht⟩ := exists_next (o := step { tone loud with
    out := [⟨5, 5⟩], level := 5, port := [0x09000001] }) (by decide +kernel)
  exact ⟨_, t, by unfold OutputInv; decide +kernel, ht, List.cons_ne_nil _ _⟩

/-- A noise step, under a mask with bit 16. -/
theorem witness_StepKeepsNoiseAlive :
    ∃ s t : State, NoiseInv s ∧ sounding s 3 = true ∧ step s = .next t := by
  obtain ⟨t, ht⟩ := exists_next (o := step { put 3 [(.volume, 0xFFFF), (.timeLeft, 9)]
    (State.resetOf aliveInstance) with
      volTab := some (exVolRow 255), port := [0x09000001] }) (by decide +kernel)
  exact ⟨_, t, by unfold NoiseInv; decide +kernel, by decide +kernel, ht⟩

/-- A configuration for each constraint of R4, at the boundary where it has one; one that meets all; a
step with a table set. -/
theorem witness_StepKeepsConfigurationAndTable :
    ({ ex1 with sampleRate := 0 } : Config).sampleRate = 0 ∧
    ({ ex1 with tickHz := 0 } : Config).tickHz = 0 ∧
    1 * 65536 / 65537 = 0 ∧ 2 ^ 31 ≤ 32769 * 65535 ∧ 2 ^ 31 ≤ 1049602 * 2046 ∧
    ({ ex1 with decayPresetSpk := 0xF600 } : Config).decayPresetSpk = ex1.decayPresetTg ∧
    ({ ex1 with fbPeriodic := 0x12000 } : Config).fbPeriodic = ex1.fbWhite ∧
    maskOnes ex1.fbWhite ≤ maskOnes 0x18000 ∧
    98304 < ({ ex1 with hull := List.replicate 98305 0 } : Config).hull.length ∧
    (∃ (cfg : Config) (v : Fin 256) (i j : Fin 16), i < j ∧
      (cfg.volTabFn[v])[i] < (cfg.volTabFn[v])[j]) ∧
    (∃ (cfg : Config) (v : Fin 256), (cfg.volTabFn[v])[15] ≠ 0) ∧
    (∃ cfg : Config, ¬ ∃ p q : Nat, 0 < q ∧ ∀ v : Fin 256,
      ((cfg.volTabFn[v])[0]).toNat = min 65535 (p * v.val / q)) ∧
    (quietCfg.sampleRate ≠ 0 ∧ quietCfg.tickHz ≠ 0 ∧ quietCfg.sampleRate * 65536 / quietCfg.tickHz ≠ 0 ∧
      quietCfg.updateStepSpk ≠ 0 ∧ quietCfg.updateStepTg ≠ 0 ∧ quietCfg.updateStepSpk * 65535 < 2 ^ 31 ∧
      quietCfg.updateStepTg * 2046 < 2 ^ 31 ∧ quietCfg.decayPresetSpk ≠ quietCfg.decayPresetTg ∧
      quietCfg.fbWhite ≠ quietCfg.fbPeriodic ∧ maskOnes quietCfg.fbPeriodic < maskOnes quietCfg.fbWhite ∧
      quietCfg.hull.length ≤ 98304 ∧
      (∀ (v : Fin 256) (i j : Fin 16), i < j → (quietCfg.volTabFn[v])[j] ≤ (quietCfg.volTabFn[v])[i]) ∧
      (∀ v : Fin 256, (quietCfg.volTabFn[v])[15] = 0) ∧
      ∃ p q : Nat, 0 < q ∧ ∀ v : Fin 256,
        ((quietCfg.volTabFn[v])[0]).toNat = min 65535 (p * v.val / q)) ∧
    ∃ s t : State, step s = .next t ∧ TableInv s ∧ s.volTab ≠ none := by
  refine ⟨rfl, rfl, by decide, by decide, by decide, by decide +kernel, by decide +kernel,
    by decide +kernel, ?_, ⟨risingCfg, 0, 0, 1, by decide +kernel⟩, ⟨flatCfg, 0, by decide +kernel⟩,
    ⟨flatCfg, ?_⟩,
    ⟨by decide, by decide, by decide, by decide, by decide, by decide, by decide, by decide, by decide,
      by decide +kernel, by decide, fun v i j _ => by simp [quietCfg], fun v => by simp [quietCfg],
      0, 1, by decide, fun v => by simp [quietCfg]⟩, ?_⟩
  · exact Nat.lt_of_lt_of_eq (by decide) List.length_replicate.symm
  · rintro ⟨p, q, -, h⟩
    have h₀ : (7 : Nat) = min 65535 (p * 0 / q) := h 0
    rw [Nat.mul_zero, Nat.zero_div] at h₀
    omega
  · obtain ⟨t, ht⟩ := exists_next (o := step { State.reset with
      volTab := some ex1.volTabFn[(255 : BitVec 8).toNat], port := [0x09000001] }) (by decide +kernel)
    exact ⟨_, t, ht, fun _ h => ⟨255, (Option.some.inj h).symm⟩, nofun⟩

theorem witness_ResetMeetsInvariants :
    ∃ inst : Instance, inst.cfg.fbWhite.getLsbD 16 = true ∧ inst.cfg.fbPeriodic.getLsbD 16 = true ∧
      inst.cfg.ngPreset ≠ 0 :=
  ⟨aliveInstance, by decide +kernel⟩

theorem witness_OnlyPullCanStop : ∀ n, Instr.wrch 6 5 0x1234 ≠ .pull n := nofun

theorem witness_StopsAreExcluded :
    ∃ s : State, s.volTab ≠ none ∧ hostObeys s = true ∧ s.answers ≠ [] :=
  ⟨{ tone loud with answers := [[0x05130000, 0x04130001]] }, nofun, by decide +kernel,
    List.cons_ne_nil _ _⟩

theorem witness_PullKeepsHostStorage :
    ∃ s t : State, s.answers = [] ∧ exec (.pull 2) s = .next t :=
  ⟨tone loud, (exists_next (by decide +kernel)).imp fun _ h => ⟨rfl, h⟩⟩

end Sys2Proof.Tests
end

section
/-! What each check of `Config.wellFormed` refuses, in the terms of the table of R4 and the properties of R84. -/

namespace Sys2Proof

open Sys2Proof.Machine

theorem Config.ratesOk_eq_false_iff (cfg : Config) :
    cfg.ratesOk = false ↔
      cfg.sampleRate = 0 ∨ cfg.tickHz = 0 ∨ cfg.sampleRate * 65536 / cfg.tickHz = 0 := by
  change _ ↔ _ ∨ _ ∨ tickStep cfg = 0
  simp only [Config.ratesOk, Bool.and_eq_false_iff, decide_eq_false_iff_not, Nat.not_lt,
    Nat.le_zero, or_assoc]

theorem Config.updateStepsOk_eq_false_iff (cfg : Config) :
    cfg.updateStepsOk = false ↔
      cfg.updateStepSpk = 0 ∨ cfg.updateStepTg = 0 ∨ 2 ^ 31 ≤ cfg.updateStepSpk * 65535 ∨
        2 ^ 31 ≤ cfg.updateStepTg * 2046 := by
  simp only [Config.updateStepsOk, Bool.and_eq_false_iff, decide_eq_false_iff_not, Nat.not_lt,
    Nat.le_zero, or_assoc]

theorem Config.presetsOk_eq_false_iff (cfg : Config) :
    cfg.presetsOk = false ↔ cfg.decayPresetSpk = cfg.decayPresetTg := by
  simp [Config.presetsOk]

theorem Config.masksOk_eq_false_iff (cfg : Config) :
    cfg.masksOk = false ↔
      cfg.fbWhite = cfg.fbPeriodic ∨ maskOnes cfg.fbWhite ≤ maskOnes cfg.fbPeriodic := by
  simp only [Config.masksOk, Bool.and_eq_false_iff, bne_eq_false_iff_eq, decide_eq_false_iff_not,
    Nat.not_lt]

theorem Config.hullOk_eq_false_iff (cfg : Config) :
    cfg.hullOk = false ↔ 98304 < cfg.hull.length := by
  simp [Config.hullOk]

/-- Comparing neighbours is enough: the order is transitive. -/
theorem fallsToZero_iff (l : List Word) :
    fallsToZero l = true ↔ l.Pairwise (fun x y => y ≤ x) ∧ l.getLast? = some 0 := by
  induction l with
  | nil => simp [fallsToZero]
  | cons x l ih =>
    cases l with
    | nil => simp [fallsToZero]
    | cons y r =>
      have head_iff (h : (y :: r).Pairwise (fun x y => y ≤ x)) :
          y ≤ x ↔ ∀ z ∈ y :: r, z ≤ x := by
        refine ⟨fun hyx z hz => ?_, fun hx => hx y List.mem_cons_self⟩
        obtain rfl | hz := List.mem_cons.mp hz
        · exact hyx
        · exact BitVec.le_trans ((List.pairwise_cons.mp h).1 z hz) hyx
      rw [fallsToZero, Bool.and_eq_true, decide_eq_true_eq, ih, List.pairwise_cons (a := x),
        List.getLast?_cons_cons, ← and_assoc]
      exact and_congr_left fun _ => and_congr_left head_iff

theorem tableFalls_iff (t : VolTab) :
    tableFalls t = true ↔ (∀ i j : Fin 16, i < j → t[j] ≤ t[i]) ∧ t[15] = 0 := by
  have last : t.toList.getLast? = some t[15] := by
    simp [List.getLast?_eq_getElem?]
  rw [tableFalls, fallsToZero_iff, last, Option.some_inj, List.pairwise_iff_getElem]
  refine and_congr_left fun _ => ⟨fun h i j hij => ?_, fun h i j hi hj hij => ?_⟩
  · simpa using h i j (by simp) (by simp) hij
  · rw [Vector.length_toList] at hi hj
    simpa using h ⟨i, hi⟩ ⟨j, hj⟩ hij

theorem tableFalls_eq_false_iff (t : VolTab) :
    tableFalls t = false ↔ (∃ i j : Fin 16, i < j ∧ t[i] < t[j]) ∨ t[15] ≠ 0 := by
  rw [← Bool.not_eq_true, tableFalls_iff, not_and_or]
  simp only [not_forall, BitVec.not_le, exists_prop, ne_eq]

/-- Properties (a) and (b) of R84 fail for the table of some volume. -/
theorem Config.allTablesFall_eq_false_iff (cfg : Config) :
    cfg.volTabFn.toList.all tableFalls = false ↔
      (∃ (v : Fin 256) (i j : Fin 16), i < j ∧ (cfg.volTabFn[v])[i] < (cfg.volTabFn[v])[j]) ∨
        ∃ v : Fin 256, (cfg.volTabFn[v])[15] ≠ 0 := by
  have some_table : cfg.volTabFn.toList.all tableFalls = false ↔
      ∃ v : Fin 256, tableFalls cfg.volTabFn[v] = false := by
    simp [Fin.exists_iff]
  simp only [some_table, tableFalls_eq_false_iff, exists_or]

theorem Config.volTop_eq (cfg : Config) (v : Fin 256) :
    cfg.volTop v = ((cfg.volTabFn[v])[0]).toNat := by
  simp [Config.volTop]

/-- Property (c) of R84 fails: no rational constant gives the top entries. -/
theorem Config.topProportional_eq_false_iff (cfg : Config) :
    cfg.topProportional = false ↔
      ¬ ∃ p q : Nat, 0 < q ∧ ∀ v : Fin 256,
        ((cfg.volTabFn[v])[0]).toNat = min 65535 (p * v.val / q) := by
  simp only [← Bool.not_eq_true, topProportional_iff, ← Config.volTop_eq, Fin.forall_iff]

/-- A configuration is ill-formed when a check of R4 or a property of R84 fails. -/
theorem Config.wellFormed_eq_false_iff (cfg : Config) :
    cfg.wellFormed = false ↔
      cfg.ratesOk = false ∨ cfg.updateStepsOk = false ∨ cfg.presetsOk = false ∨
        cfg.masksOk = false ∨ cfg.hullOk = false ∨
        cfg.volTabFn.toList.all tableFalls = false ∨ cfg.topProportional = false := by
  simp only [Config.wellFormed, Config.volTabOk, Bool.and_eq_false_iff, or_assoc]

end Sys2Proof

namespace Sys2Proof.Machine

open Sys2Proof

/-- R4, R211: an ill-formed configuration is refused. -/
theorem State.create_of_illFormed {cfg : Config} (h : cfg.wellFormed = false) :
    State.create cfg = .refused .illFormedInstance := by
  obtain ⟨hw, -⟩ | ⟨-, hc⟩ := State.create_cases cfg
  · rw [h] at hw; cases hw
  · exact hc

/-- R210: a well-formed configuration starts in its reset state. -/
theorem State.create_of_wellFormed {cfg : Config} (h : cfg.wellFormed = true) :
    State.create cfg = .next (State.resetOf ⟨cfg, h⟩) := by
  obtain ⟨_, hc⟩ | ⟨hw, -⟩ := State.create_cases cfg
  · exact hc
  · rw [h] at hw; cases hw

end Sys2Proof.Machine
end

section
/-! `SameSetup` along `PULL`: no operation of a frame or a tick writes the configuration, `PROFILE` or
`VOLTAB`. The operations stand in the order of the model's files. -/

namespace Sys2Proof.Machine

open Sys2Proof

theorem SameSetup.refl (s : State) : SameSetup s s := ⟨rfl, rfl, rfl⟩

theorem SameSetup.trans {s t u : State} (h : SameSetup s t) (h' : SameSetup t u) :
    SameSetup s u := by
  obtain ⟨hi, hp, hv⟩ := h
  obtain ⟨hi', hp', hv'⟩ := h'
  exact ⟨hi'.trans hi, hp'.trans hp, hv'.trans hv⟩

/-! ## Operations that always answer a state -/

theorem setReg_sameSetup (s : State) (sl : Fin 5) (r : Reg) (v : Word) :
    SameSetup s (s.setReg sl r v) := ⟨rfl, rfl, rfl⟩

theorem setTimer_sameSetup (s : State) (c : Fin 4) (t : Int) :
    SameSetup s (s.setTimer c t) := ⟨rfl, rfl, rfl⟩

theorem countDown_sameSetup (k : Nat) (s : State) : SameSetup s (countDown k s) := ⟨rfl, rfl, rfl⟩

theorem reload_sameSetup (s : State) : SameSetup s (reload s) := ⟨rfl, rfl, rfl⟩

theorem musicTimerStep_sameSetup (s : State) : SameSetup s (musicTimerStep s) := by
  obtain h | h := musicTimerStep_cases s <;> rw [h] <;> exact ⟨rfl, rfl, rfl⟩

theorem finishFrame_sameSetup (x : State × Int) : SameSetup x.1 (finishFrame x) := ⟨rfl, rfl, rfl⟩

/-! ## The mixes and the frame -/

theorem oscSpan_sameSetup (c : Fin 4) (period : Nat) (fb : Option Mask) (s : State) :
    SameSetup s (oscSpan c period fb s).2 := by
  have edges (fuel : Nat) (t d : Int) : SameSetup s (oscEdges fb c period fuel t d s).2.2 := by
    rw [oscEdges_eq]
    exact ⟨rfl, rfl, rfl⟩
  exact (edges _ _ _).trans (setTimer_sameSetup _ c _)

theorem osc_sameSetup {c : Fin 4} {f : Nat} {vt : Word} {fb : Option Mask} {x y : State × Int}
    (h : osc c f vt fb x = .next y) : SameSetup x.1 y.1 := by
  obtain ⟨-, ho⟩ | ⟨-, ho⟩ := osc_cases c f vt fb x
  · rw [ho] at h; cases h
  · rw [ho] at h; cases h; exact oscSpan_sameSetup c _ fb x.1

theorem syncPair_sameSetup (i j : Fin 4) (s : State) : SameSetup s (syncPair i j s) := by
  unfold syncPair
  split <;> exact ⟨rfl, rfl, rfl⟩

theorem phaseSync_sameSetup (s : State) : SameSetup s (phaseSync s) :=
  ((syncPair_sameSetup 1 0 s).trans (syncPair_sameSetup 2 0 _)).trans (syncPair_sameSetup 2 1 _)

theorem tgChannel_sameSetup {c : Fin 4} {x y : State × Int} (h : tgChannel c x = .next y) :
    SameSetup x.1 y.1 := by
  unfold tgChannel at h
  split at h
  · split at h
    · obtain ⟨vt, -, h⟩ := andThen_eq_next.mp h
      exact osc_sameSetup h
    · obtain ⟨vt, -, h⟩ := andThen_eq_next.mp h
      exact osc_sameSetup h
  · cases h
    exact setTimer_sameSetup x.1 c _

theorem tgMix_next {s : State} {x : State × Int} (h : tgMix s = .next x) :
    ∃ a b c, tgChannel 0 (phaseSync s, 0) = .next a ∧ tgChannel 1 a = .next b ∧
      tgChannel 2 b = .next c ∧ tgChannel 3 c = .next x := by
  obtain ⟨a, ha, h⟩ := andThen_eq_next.mp h
  obtain ⟨b, hb, h⟩ := andThen_eq_next.mp h
  obtain ⟨c, hc, h⟩ := andThen_eq_next.mp h
  exact ⟨a, b, c, ha, hb, hc, h⟩

theorem tgMix_sameSetup {s : State} {x : State × Int} (h : tgMix s = .next x) :
    SameSetup s x.1 := by
  obtain ⟨a, b, c, ha, hb, hc, hd⟩ := tgMix_next h
  have synced : SameSetup s (phaseSync s) := phaseSync_sameSetup s
  generalize phaseSync s = s' at ha synced
  exact synced.trans <| (tgChannel_sameSetup ha).trans <| (tgChannel_sameSetup hb).trans <|
    (tgChannel_sameSetup hc).trans <| tgChannel_sameSetup hd

theorem spkMix_sameSetup {s : State} {x : State × Int} (h : spkMix s = .next x) :
    SameSetup s x.1 := by
  unfold spkMix at h
  split at h
  · cases h; exact SameSetup.refl s
  · obtain ⟨vt, -, h⟩ := andThen_eq_next.mp h
    exact osc_sameSetup h

theorem mix_sameSetup {s : State} {x : State × Int} (h : mix s = .next x) : SameSetup s x.1 := by
  unfold mix at h
  split at h
  · exact spkMix_sameSetup h
  · exact tgMix_sameSetup h

theorem frameStep_sameSetup {s t : State} (h : frameStep s = .next t) : SameSetup s t := by
  obtain ⟨x, hx, rfl⟩ := frameStep_next h
  exact (mix_sameSetup hx).trans (finishFrame_sameSetup x)

theorem frames_sameSetup {k : Nat} {s t : State} (h : frames k s = .next t) : SameSetup s t := by
  induction k generalizing s with
  | zero => cases h; exact SameSetup.refl _
  | succ k ih =>
    obtain ⟨u, hu, h⟩ := andThen_eq_next.mp h
    exact (frameStep_sameSetup hu).trans (ih h)

/-! ## The tick -/

theorem effectiveFreq_sameSetup {sl : Fin 5} {s t : State} (h : effectiveFreq sl s = .next t) :
    SameSetup s t := by
  obtain ⟨b, -, he⟩ | ⟨-, he⟩ := effectiveFreq_cases sl s
  · rw [he] at h; cases h; exact setReg_sameSetup s sl _ _
  · rw [he] at h; cases h

theorem noteOff_sameSetup (sl : Fin 5) (s : State) : SameSetup s (noteOff sl s) := by
  unfold noteOff
  split
  · exact SameSetup.refl s
  · dsimp only
    split <;> exact ⟨rfl, rfl, rfl⟩

theorem holdPair_sameSetup (sl : Fin 5) (a : Word) (s : State) : SameSetup s (holdPair sl a s) := by
  unfold holdPair
  dsimp only
  split <;> exact ⟨rfl, rfl, rfl⟩

theorem hullLoop_sameSetup {sl : Fin 5} {fuel : Nat} {s t : State}
    (h : hullLoop sl fuel s = .next t) : SameSetup s t := by
  induction fuel generalizing s with
  | zero => cases h
  | succ k ih =>
    obtain hf | ⟨a, b, -, -, -, hr⟩ := hullLoop_succ_cases sl k s
    · rw [hf] at h; cases h
    · have moved := setReg_sameSetup s sl .hullOffset (s.reg sl .hullOffset + 4)
      rw [hr] at h
      split at h
      · exact (moved.trans (holdPair_sameSetup sl a _)).trans (ih h)
      · cases h; exact moved.trans ⟨rfl, rfl, rfl⟩

theorem hullStep_sameSetup {sl : Fin 5} {s t : State} (h : hullStep sl s = .next t) :
    SameSetup s t := by
  have counted := setReg_sameSetup s sl .hullCounter (s.reg sl .hullCounter - 1)
  unfold hullStep at h
  split at h
  · cases h; exact SameSetup.refl s
  · dsimp only at h
    split at h
    · exact counted.trans (hullLoop_sameSetup h)
    · cases h; exact counted

theorem serve_sameSetup {e : Event} {s t : State} (h : serve e s = .next t) : SameSetup s t := by
  obtain ⟨-, -, -, hs, -⟩ := serve_next h
  exact hs

theorem durationStep_sameSetup {c : Fin 4} {s t : State} (h : durationStep c s = .next t) :
    SameSetup s t := by
  have counted :=
    setReg_sameSetup s (chanSlot c) .timeLeft (s.reg (chanSlot c) .timeLeft - 1)
  unfold durationStep at h
  dsimp only at h
  split at h
  · exact counted.trans (serve_sameSetup h)
  · cases h; exact counted

theorem chTick_sameSetup {c : Fin 4} {s t : State} (h : chTick c s = .next t) : SameSetup s t := by
  obtain ⟨u, v, hu, hv, ht⟩ := chTick_next h
  have ramps : SameSetup s (cursorAdvance (chanSlot c) (baseRamp (chanSlot c)
      (volumeRamp (chanSlot c) s))) := ⟨rfl, rfl, rfl⟩
  exact ramps.trans <|
    (effectiveFreq_sameSetup hu).trans <|
    (noteOff_sameSetup (chanSlot c) u).trans <|
    (hullStep_sameSetup hv).trans <|
    durationStep_sameSetup ht

theorem tickChannel_sameSetup {c : Fin 4} {s t : State} (h : tickChannel c s = .next t) :
    SameSetup s t := by
  unfold tickChannel at h
  split at h
  · exact chTick_sameSetup h
  · cases h; exact SameSetup.refl s

theorem idleStep_sameSetup {was : Bool} {s t : State} (h : idleStep was s = .next t) :
    SameSetup s t := by
  unfold idleStep at h
  split at h
  · exact serve_sameSetup h
  · cases h; exact SameSetup.refl s

theorem tick_sameSetup {s t : State} (h : tick s = .next t) : SameSetup s t := by
  obtain ⟨u, v, hu, hv, rfl⟩ := tick_next h
  obtain ⟨a, b, c, ha, hb, hc, hd⟩ := tickChannels_next hu
  exact (tickChannel_sameSetup ha).trans <|
    (tickChannel_sameSetup hb).trans <|
    (tickChannel_sameSetup hc).trans <|
    (tickChannel_sameSetup hd).trans <|
    (musicTimerStep_sameSetup u).trans <|
    (idleStep_sameSetup hv).trans ⟨rfl, rfl, rfl⟩

/-! ## `PULL` -/

theorem tickIfDue_sameSetup {s t : State} (h : tickIfDue s = .next t) : SameSetup s t := by
  unfold tickIfDue at h
  split at h
  · obtain ⟨u, hu, h⟩ := andThen_eq_next.mp h
    cases h
    exact (tick_sameSetup hu).trans (reload_sameSetup u)
  · cases h; exact SameSetup.refl s

theorem pullLoop_sameSetup {fuel left : Nat} {s t : State} (h : pullLoop fuel left s = .next t) :
    SameSetup s t := by
  induction fuel generalizing left s with
  | zero => cases h; exact SameSetup.refl _
  | succ k ih =>
    by_cases hl : left = 0
    · rw [hl, pullLoop_none] at h; cases h; exact SameSetup.refl _
    · rw [pullLoop_step hl rfl] at h
      obtain ⟨u, hu, h⟩ := andThen_eq_next.mp h
      obtain ⟨v, hv, h⟩ := andThen_eq_next.mp h
      exact (frames_sameSetup hu).trans <|
        (countDown_sameSetup _ u).trans <|
        (tickIfDue_sameSetup hv).trans <|
        ih h

theorem execPull_sameSetup {n : BitVec 24} {s t : State} (h : execPull n s = .next t) :
    SameSetup s t := by
  unfold execPull at h
  split at h
  · cases h
  · exact pullLoop_sameSetup h

end Sys2Proof.Machine
end

section
/-! O56: creation, and what every step keeps of its configuration and volume table. -/

namespace Sys2Proof.Machine

open Sys2Proof

/-- What R211 and R20 ask of a step: the configuration stays, and `TableInv` with it. -/
def KeepsConfigAndTable (s t : State) : Prop := t.inst = s.inst ∧ (TableInv s → TableInv t)

theorem KeepsConfigAndTable.trans {s t u : State} (h : KeepsConfigAndTable s t)
    (h' : KeepsConfigAndTable t u) : KeepsConfigAndTable s u :=
  ⟨h'.1.trans h.1, h'.2 ∘ h.2⟩

theorem SameSetup.keepsConfigAndTable {s t : State} (h : SameSetup s t) :
    KeepsConfigAndTable s t := by
  obtain ⟨hi, -, hv⟩ := h
  refine ⟨hi, fun hs tab ht => ?_⟩
  rw [State.cfg_def, hi]
  exact hs tab (hv ▸ ht)

/-- The six commands of R90 mean the same inside a service call and outside. -/
theorem exec_eq_serviceCommand {i : Instr} (h : i.allowedInService = true) (s : State) :
    exec i s = serviceCommand i s := by
  cases i with
  | nop | wrch | rdch | clrch | wrtpm | rdtmr => rfl
  | reset | mode | setvol | pull => cases h

theorem exec_sameSetup_of_allowedInService {i : Instr} (hi : i.allowedInService = true)
    {s t : State} (h : exec i s = .next t) : SameSetup s t := by
  rw [exec_eq_serviceCommand hi] at h
  obtain ⟨u, hu, -, -, -, -, hf, -⟩ | ⟨-, hn⟩ := serviceCommand_cases i s
  · rw [hu] at h; cases h; exact hf
  · rw [hi] at hn; cases hn

theorem execReset_keepsConfigAndTable {s t : State} (h : execReset s = .next t) :
    KeepsConfigAndTable s t := by
  cases h
  exact ⟨rfl, fun _ _ ht => nomatch ht⟩

theorem execMode_keepsConfigAndTable {p : Profile} {s t : State} (h : execMode p s = .next t) :
    KeepsConfigAndTable s t := by
  cases h
  exact ⟨rfl, id⟩

/-- `SETVOL v` puts the value of `VOLTAB_FN` at `v` in the table, whatever stood there. -/
theorem execSetvol_keepsConfigAndTable {v : BitVec 8} {s t : State}
    (h : execSetvol v s = .next t) : KeepsConfigAndTable s t := by
  cases h
  exact ⟨rfl, fun _ _ ht => ⟨v, (Option.some.inj ht).symm⟩⟩

theorem exec_keepsConfigAndTable {i : Instr} {s t : State} (h : exec i s = .next t) :
    KeepsConfigAndTable s t := by
  cases i with
  | nop | wrch | rdch | clrch | wrtpm | rdtmr =>
    exact (exec_sameSetup_of_allowedInService rfl h).keepsConfigAndTable
  | reset => exact execReset_keepsConfigAndTable h
  | mode p => exact execMode_keepsConfigAndTable h
  | setvol v => exact execSetvol_keepsConfigAndTable h
  | pull n => exact (execPull_sameSetup h).keepsConfigAndTable

/-- Taking a word from the port changes nothing else. -/
theorem fetch_sameSetup {s t : State} {w : CmdWord} (h : s.fetch = some (w, t)) :
    SameSetup s t := by
  unfold State.fetch at h
  split at h
  · cases h
  · cases h; exact ⟨rfl, rfl, rfl⟩

/-- What a completed step was: an idle one, a command, or a reserved word (R65, R90). -/
theorem step_next {s t : State} (h : step s = .next t) :
    t = s ∨ ∃ w u, s.fetch = some (w, u) ∧ (t = u ∨ ∃ i, decode w = .ok i ∧ exec i u = .next t) := by
  unfold step at h
  split at h
  · cases h; exact .inl rfl
  · next w u hf =>
    refine .inr ⟨w, u, hf, ?_⟩
    split at h
    · next i hi => exact .inr ⟨i, hi, h⟩
    · cases h; exact .inl rfl

theorem step_keepsConfigAndTable {s t : State} (h : step s = .next t) :
    KeepsConfigAndTable s t := by
  obtain rfl | ⟨w, u, hf, ht⟩ := step_next h
  · exact (SameSetup.refl t).keepsConfigAndTable
  · have taken := (fetch_sameSetup hf).keepsConfigAndTable
    obtain rfl | ⟨i, -, hi⟩ := ht
    · exact taken
    · exact taken.trans (exec_keepsConfigAndTable hi)

/-- Settles O56: the disjunction over R4's table is the failure of the check at creation, and every step is
an idle one, a reserved word or a command, each of which keeps the configuration and the table. -/
theorem stepKeepsConfigurationAndTable : Obligations.StepKeepsConfigurationAndTable := by
  unfold Obligations.StepKeepsConfigurationAndTable
  refine ⟨fun cfg violates hv => ?_, fun s t h => step_keepsConfigAndTable h⟩
  have refused_iff : violates ↔ cfg.wellFormed = false := by
    rw [hv]
    simp only [Config.wellFormed_eq_false_iff, Config.ratesOk_eq_false_iff,
      Config.updateStepsOk_eq_false_iff, Config.presetsOk_eq_false_iff, Config.masksOk_eq_false_iff,
      Config.hullOk_eq_false_iff, Config.allTablesFall_eq_false_iff,
      Config.topProportional_eq_false_iff, or_assoc]
  rw [refused_iff, Bool.not_eq_false]
  exact ⟨State.create_of_illFormed,
    fun hw => ⟨⟨cfg, hw⟩, rfl, State.create_of_wellFormed hw⟩⟩

end Sys2Proof.Machine
end

section
/-! An induction principle for `PULL`: a reflexive and transitive relation that holds across each single
write of a frame and of a tick holds from the start of a `PULL` to its end. The operations stand in the
order of the model's files. -/

namespace Sys2Proof.Machine

open Sys2Proof

/-- The registers of a channel that the block itself writes, in a tick: the column "B writes" of R12. -/
def engineWrites : Reg → Bool
  | .timeLeft | .baseFreq | .freq | .volume | .volumeDelta | .noteLength | .hullOffset | .hullCounter
  | .freqmodCursor => true
  | _ => false

/-- `R` holds across every single thing a `PULL` does to the state (R136, R162, R164 to R168). -/
structure ClosedUnderPull (R : State → State → Prop) : Prop where
  refl : ∀ s, R s s
  trans : ∀ {s t u}, R s t → R t u → R s u
  oscillators : ∀ s p k g, R s { s with phase := p, timerCount := k, rng := g }
  frameOut : ∀ x : State × Int, R x.1 (finishFrame x)
  engineReg : ∀ s c r v, engineWrites r = true → R s (s.setReg (chanSlot c) r v)
  service : ∀ {e s t}, serve e s = .next t → R s t
  music : ∀ s, R s (musicTimerStep s)
  tickCount : ∀ s n, R s { s with ticks := n }
  divider : ∀ s v, R s (s.setNextTick v)

section
variable {R : State → State → Prop} (hR : ClosedUnderPull R)
include hR

/-! ## The mixes and the frame -/

theorem ClosedUnderPull.setTimer_rel (s : State) (c : Fin 4) (t : Int) : R s (s.setTimer c t) :=
  hR.oscillators s s.phase _ s.rng

theorem ClosedUnderPull.oscSpan_rel (c : Fin 4) (period : Nat) (fb : Option Mask) (s : State) :
    R s (oscSpan c period fb s).2 := by
  have edges (fuel : Nat) (t d : Int) : R s (oscEdges fb c period fuel t d s).2.2 := by
    rw [oscEdges_eq]
    exact hR.oscillators s _ s.timerCount _
  exact hR.trans (edges _ _ _) (hR.setTimer_rel _ c _)

theorem ClosedUnderPull.osc_rel {c : Fin 4} {f : Nat} {vt : Word} {fb : Option Mask}
    {x y : State × Int} (h : osc c f vt fb x = .next y) : R x.1 y.1 := by
  obtain ⟨-, ho⟩ | ⟨-, ho⟩ := osc_cases c f vt fb x
  · rw [ho] at h; cases h
  · rw [ho] at h; cases h; exact hR.oscSpan_rel c _ fb x.1

theorem ClosedUnderPull.syncPair_rel (i j : Fin 4) (s : State) : R s (syncPair i j s) := by
  unfold syncPair
  split
  · exact hR.oscillators s _ _ s.rng
  · exact hR.refl s

theorem ClosedUnderPull.phaseSync_rel (s : State) : R s (phaseSync s) :=
  hR.trans (hR.trans (hR.syncPair_rel 1 0 s) (hR.syncPair_rel 2 0 _)) (hR.syncPair_rel 2 1 _)

theorem ClosedUnderPull.tgChannel_rel {c : Fin 4} {x y : State × Int}
    (h : tgChannel c x = .next y) : R x.1 y.1 := by
  unfold tgChannel at h
  split at h
  · split at h
    · obtain ⟨vt, -, h⟩ := andThen_eq_next.mp h
      exact hR.osc_rel h
    · obtain ⟨vt, -, h⟩ := andThen_eq_next.mp h
      exact hR.osc_rel h
  · cases h
    exact hR.setTimer_rel x.1 c _

theorem ClosedUnderPull.tgMix_rel {s : State} {x : State × Int} (h : tgMix s = .next x) :
    R s x.1 := by
  obtain ⟨a, b, c, ha, hb, hc, hd⟩ := tgMix_next h
  have synced : R s (phaseSync s) := hR.phaseSync_rel s
  generalize phaseSync s = s' at ha synced
  exact hR.trans synced <| hR.trans (hR.tgChannel_rel ha) <| hR.trans (hR.tgChannel_rel hb) <|
    hR.trans (hR.tgChannel_rel hc) <| hR.tgChannel_rel hd

theorem ClosedUnderPull.spkMix_rel {s : State} {x : State × Int} (h : spkMix s = .next x) :
    R s x.1 := by
  unfold spkMix at h
  split at h
  · cases h; exact hR.refl s
  · obtain ⟨vt, -, h⟩ := andThen_eq_next.mp h
    exact hR.osc_rel h

theorem ClosedUnderPull.mix_rel {s : State} {x : State × Int} (h : mix s = .next x) :
    R s x.1 := by
  unfold mix at h
  split at h
  · exact hR.spkMix_rel h
  · exact hR.tgMix_rel h

theorem ClosedUnderPull.frameStep_rel {s t : State} (h : frameStep s = .next t) : R s t := by
  obtain ⟨x, hx, rfl⟩ := frameStep_next h
  exact hR.trans (hR.mix_rel hx) (hR.frameOut x)

theorem ClosedUnderPull.frames_rel {k : Nat} {s t : State} (h : frames k s = .next t) :
    R s t := by
  induction k generalizing s with
  | zero => cases h; exact hR.refl _
  | succ k ih =>
    obtain ⟨u, hu, h⟩ := andThen_eq_next.mp h
    exact hR.trans (hR.frameStep_rel hu) (ih h)

/-! ## The tick -/

/-- One more register write of an engine. -/
theorem ClosedUnderPull.then_setReg {s t : State} (h : R s t) (c : Fin 4) (r : Reg) (v : Word)
    (hr : engineWrites r = true) : R s (t.setReg (chanSlot c) r v) :=
  hR.trans h (hR.engineReg t c r v hr)

theorem ClosedUnderPull.ramps_rel (c : Fin 4) (s : State) :
    R s (cursorAdvance (chanSlot c) (baseRamp (chanSlot c) (volumeRamp (chanSlot c) s))) :=
  have volume : R s (volumeRamp (chanSlot c) s) := hR.then_setReg (hR.refl s) c .volume _ rfl
  have base := hR.then_setReg volume c .baseFreq _ rfl
  hR.then_setReg base c .freqmodCursor _ rfl

theorem ClosedUnderPull.effectiveFreq_rel {c : Fin 4} {s t : State}
    (h : effectiveFreq (chanSlot c) s = .next t) : R s t := by
  obtain ⟨b, -, he⟩ | ⟨-, he⟩ := effectiveFreq_cases (chanSlot c) s
  · rw [he] at h; cases h; exact hR.then_setReg (hR.refl s) c .freq _ rfl
  · rw [he] at h; cases h

theorem ClosedUnderPull.noteOff_rel (c : Fin 4) (s : State) :
    R s (noteOff (chanSlot c) s) := by
  unfold noteOff
  split
  · exact hR.refl s
  · have counted :=
      hR.then_setReg (hR.refl s) c .noteLength (s.reg (chanSlot c) .noteLength - 1) rfl
    dsimp only
    split
    · exact hR.then_setReg (hR.then_setReg counted c .hullOffset _ rfl) c .hullCounter _ rfl
    · exact counted

theorem ClosedUnderPull.holdPair_rel (c : Fin 4) (a : Word) (s : State) :
    R s (holdPair (chanSlot c) a s) := by
  have level := hR.then_setReg (hR.refl s) c .volume a rfl
  unfold holdPair
  dsimp only
  split
  · exact hR.then_setReg level c .volumeDelta _ rfl
  · exact level

theorem ClosedUnderPull.rampPair_rel (c : Fin 4) (a b : Word) (s : State) :
    R s (rampPair (chanSlot c) a b s) :=
  hR.then_setReg (hR.then_setReg (hR.refl s) c .volumeDelta a rfl) c .hullCounter b rfl

theorem ClosedUnderPull.hullLoop_rel {c : Fin 4} {fuel : Nat} {s t : State}
    (h : hullLoop (chanSlot c) fuel s = .next t) : R s t := by
  induction fuel generalizing s with
  | zero => cases h
  | succ k ih =>
    obtain hf | ⟨a, b, -, -, -, hr⟩ := hullLoop_succ_cases (chanSlot c) k s
    · rw [hf] at h; cases h
    · have moved :=
        hR.then_setReg (hR.refl s) c .hullOffset (s.reg (chanSlot c) .hullOffset + 4) rfl
      rw [hr] at h
      split at h
      · exact hR.trans (hR.trans moved (hR.holdPair_rel c a _)) (ih h)
      · cases h; exact hR.trans moved (hR.rampPair_rel c a b _)

theorem ClosedUnderPull.hullStep_rel {c : Fin 4} {s t : State}
    (h : hullStep (chanSlot c) s = .next t) : R s t := by
  unfold hullStep at h
  split at h
  · cases h; exact hR.refl s
  · have counted :=
      hR.then_setReg (hR.refl s) c .hullCounter (s.reg (chanSlot c) .hullCounter - 1) rfl
    dsimp only at h
    split at h
    · exact hR.trans counted (hR.hullLoop_rel h)
    · cases h; exact counted

theorem ClosedUnderPull.durationStep_rel {c : Fin 4} {s t : State}
    (h : durationStep c s = .next t) : R s t := by
  have counted := hR.then_setReg (hR.refl s) c .timeLeft (s.reg (chanSlot c) .timeLeft - 1) rfl
  unfold durationStep at h
  dsimp only at h
  split at h
  · exact hR.trans counted (hR.service h)
  · cases h; exact counted

theorem ClosedUnderPull.chTick_rel {c : Fin 4} {s t : State} (h : chTick c s = .next t) :
    R s t := by
  obtain ⟨u, v, hu, hv, ht⟩ := chTick_next h
  exact hR.trans (hR.ramps_rel c s) <| hR.trans (hR.effectiveFreq_rel hu) <|
    hR.trans (hR.noteOff_rel c u) <| hR.trans (hR.hullStep_rel hv) <| hR.durationStep_rel ht

theorem ClosedUnderPull.tickChannel_rel {c : Fin 4} {s t : State}
    (h : tickChannel c s = .next t) : R s t := by
  unfold tickChannel at h
  split at h
  · exact hR.chTick_rel h
  · cases h; exact hR.refl s

theorem ClosedUnderPull.tickChannels_rel {s t : State} (h : tickChannels s = .next t) :
    R s t := by
  obtain ⟨a, b, c, ha, hb, hc, hd⟩ := tickChannels_next h
  exact hR.trans (hR.tickChannel_rel ha) <| hR.trans (hR.tickChannel_rel hb) <|
    hR.trans (hR.tickChannel_rel hc) <| hR.tickChannel_rel hd

theorem ClosedUnderPull.idleStep_rel {was : Bool} {s t : State}
    (h : idleStep was s = .next t) : R s t := by
  unfold idleStep at h
  split at h
  · exact hR.service h
  · cases h; exact hR.refl s

theorem ClosedUnderPull.tick_rel {s t : State} (h : tick s = .next t) : R s t := by
  obtain ⟨u, v, hu, hv, rfl⟩ := tick_next h
  exact hR.trans (hR.tickChannels_rel hu) <| hR.trans (hR.music u) <|
    hR.trans (hR.idleStep_rel hv) <| hR.tickCount v _

/-! ## `PULL` -/

theorem ClosedUnderPull.tickIfDue_rel {s t : State} (h : tickIfDue s = .next t) : R s t := by
  unfold tickIfDue at h
  split at h
  · obtain ⟨u, hu, h⟩ := andThen_eq_next.mp h
    cases h
    exact hR.trans (hR.tick_rel hu) (hR.divider u _)
  · cases h; exact hR.refl s

theorem ClosedUnderPull.pullLoop_rel {fuel left : Nat} {s t : State}
    (h : pullLoop fuel left s = .next t) : R s t := by
  induction fuel generalizing left s with
  | zero => cases h; exact hR.refl _
  | succ k ih =>
    by_cases hl : left = 0
    · rw [hl, pullLoop_none] at h; cases h; exact hR.refl _
    · rw [pullLoop_step hl rfl] at h
      obtain ⟨u, hu, h⟩ := andThen_eq_next.mp h
      obtain ⟨v, hv, h⟩ := andThen_eq_next.mp h
      exact hR.trans (hR.frames_rel hu) <| hR.trans (hR.divider u _) <|
        hR.trans (hR.tickIfDue_rel hv) (ih h)

theorem ClosedUnderPull.execPull_rel {n : BitVec 24} {s t : State}
    (h : execPull n s = .next t) : R s t := by
  unfold execPull at h
  split at h
  · cases h
  · exact hR.pullLoop_rel h

end

end Sys2Proof.Machine
end

section
/-! `LEVEL` and the output stream (R17, R44): only the end of a frame writes them together, and `RESET`
clears both. -/

namespace Sys2Proof.Machine

open Sys2Proof

/-- `OutputInv` reads nothing but `LEVEL` and the output stream. -/
theorem OutputInv.congr {s t : State} (hl : t.level = s.level) (ho : t.out = s.out)
    (h : OutputInv s) : OutputInv t := by
  unfold OutputInv at h ⊢
  rw [hl, ho]
  exact h

theorem OutputInv.of_sameSound {s t : State} (hs : SameSound s t) (h : OutputInv s) :
    OutputInv t := by
  obtain ⟨-, hl, -, ho, -⟩ := hs
  exact h.congr hl ho

/-- With no frame emitted, `LEVEL` is 0. -/
theorem OutputInv.of_silent {s : State} (hl : s.level = 0) (ho : s.out = []) : OutputInv s := by
  unfold OutputInv
  rw [hl, ho]
  exact ⟨nofun, rfl⟩

/-- The filter's result becomes `LEVEL` and both samples of the frame (R136, R150). -/
theorem finishFrame_outputInv {x : State × Int} (h : OutputInv x.1) :
    OutputInv (finishFrame x) := by
  obtain ⟨equal, -⟩ := h
  have out : (finishFrame x).out =
      x.1.out ++ [⟨(finishFrame x).level, (finishFrame x).level⟩] := rfl
  refine ⟨fun f hf => ?_, ?_⟩
  · rw [out, List.mem_append, List.mem_singleton] at hf
    obtain old | rfl := hf
    · exact equal f old
    · rfl
  · rw [out, List.getLast?_concat]

theorem outputInv_closedUnderPull : ClosedUnderPull fun s t => OutputInv s → OutputInv t where
  refl _ := id
  trans h h' := h' ∘ h
  oscillators _ _ _ _ := .congr rfl rfl
  frameOut _ := finishFrame_outputInv
  engineReg _ _ _ _ _ := .congr rfl rfl
  service h := by
    obtain ⟨-, -, -, -, sound, -⟩ := serve_next h
    exact .of_sameSound sound
  music s := by
    obtain h | h := musicTimerStep_cases s <;> rw [h] <;> exact .congr rfl rfl
  tickCount _ _ := .congr rfl rfl
  divider _ _ := .congr rfl rfl

/-- The six commands of R90 keep to the frame of a service call outside of one too. -/
theorem exec_serviceFrame_of_allowedInService {i : Instr} (hi : i.allowedInService = true)
    {s t : State} (h : exec i s = .next t) : ServiceFrame s t := by
  rw [exec_eq_serviceCommand hi] at h
  obtain ⟨u, hu, -, hf⟩ | ⟨-, hn⟩ := serviceCommand_cases i s
  · rw [hu] at h; cases h; exact hf
  · rw [hi] at hn; cases hn

theorem exec_outputInv {i : Instr} {s t : State} (h : exec i s = .next t) (hs : OutputInv s) :
    OutputInv t := by
  cases i with
  | nop | wrch | rdch | clrch | wrtpm | rdtmr =>
    obtain ⟨-, -, -, -, sound, -⟩ := exec_serviceFrame_of_allowedInService rfl h
    exact hs.of_sameSound sound
  | reset => cases h; exact .of_silent rfl rfl
  | mode p => cases h; exact hs.congr rfl rfl
  | setvol v => cases h; exact hs.congr rfl rfl
  | pull n => exact outputInv_closedUnderPull.execPull_rel h hs

/-- Taking a word from the port changes the port alone. -/
theorem fetch_eq {s t : State} {w : CmdWord} (h : s.fetch = some (w, t)) :
    t = { s with port := t.port } := by
  unfold State.fetch at h
  split at h
  · cases h
  · cases h; rfl

/-- Settles O54: a step is an idle one, a reserved word or a command; only `RESET` and the frames of a
`PULL` write `LEVEL` or the stream. -/
theorem stepKeepsLevelLastFrame : Obligations.StepKeepsLevelLastFrame := by
  intro s t hs h
  obtain rfl | ⟨w, u, hf, ht⟩ := step_next h
  · exact hs
  · have taken : OutputInv u := by
      rw [fetch_eq hf]
      exact hs.congr rfl rfl
    obtain rfl | ⟨i, -, hi⟩ := ht
    · exact taken
    · exact exec_outputInv hi taken

end Sys2Proof.Machine
end

section
/-! What a `PULL` leaves of the host's storage (R11, R12) when the host does nothing at service points. -/

namespace Sys2Proof.Machine

open Sys2Proof

/-- The sentinel slot, the registers the block never writes, the prescaler, the results returned and the
host's answers are unchanged. -/
structure SameHostStorage (s t : State) : Prop where
  reg : ∀ sl r, sl = 4 ∨ engineWrites r = false → t.reg sl r = s.reg sl r
  prescaler : t.ticksPerMusicTimer = s.ticksPerMusicTimer
  results : t.results = s.results
  answers : t.answers = s.answers

theorem SameHostStorage.trans {s t u : State} (h : SameHostStorage s t)
    (h' : SameHostStorage t u) : SameHostStorage s u where
  reg sl r hr := (h'.reg sl r hr).trans (h.reg sl r hr)
  prescaler := h'.prescaler.trans h.prescaler
  results := h'.results.trans h.results
  answers := h'.answers.trans h.answers

/-- An update outside the register file. -/
theorem SameHostStorage.of_ch {s t : State} (hc : t.ch = s.ch)
    (hp : t.ticksPerMusicTimer = s.ticksPerMusicTimer) (hr : t.results = s.results)
    (ha : t.answers = s.answers) : SameHostStorage s t :=
  ⟨fun sl r _ => State.reg_congr hc sl r, hp, hr, ha⟩

/-- An engine's write falls in a channel's slot and on a register of the block's own. -/
theorem setReg_sameHostStorage (s : State) (c : Fin 4) {r : Reg} (v : Word)
    (hr : engineWrites r = true) : SameHostStorage s (s.setReg (chanSlot c) r v) where
  reg sl q hq := by
    refine State.reg_setReg_ne s v (hq.imp ?_ ?_)
    · rintro rfl; exact (chanSlot_ne_sentinel c).symm
    · rintro hq rfl; rw [hr] at hq; cases hq
  prescaler := rfl
  results := rfl
  answers := rfl

theorem sameHostStorage_closedUnderPull :
    ClosedUnderPull fun s t => s.answers = [] → SameHostStorage s t where
  refl _ _ := .of_ch rfl rfl rfl rfl
  trans h h' hs := (h hs).trans (h' ((h hs).answers.trans hs))
  oscillators _ _ _ _ _ := .of_ch rfl rfl rfl rfl
  frameOut _ _ := .of_ch rfl rfl rfl rfl
  engineReg s c _ v hr _ := setReg_sameHostStorage s c v hr
  service h hs := by
    rw [serve_silent hs] at h
    cases h
    exact .of_ch rfl rfl rfl rfl
  music s _ := by
    obtain h | h := musicTimerStep_cases s <;> rw [h] <;> exact .of_ch rfl rfl rfl rfl
  tickCount _ _ _ := .of_ch rfl rfl rfl rfl
  divider _ _ _ := .of_ch rfl rfl rfl rfl

/-- Settles O60: nothing a `PULL` does without a host writes outside the block's own registers, and the
fourteen registers listed are none of these. -/
theorem pullKeepsHostStorage : Obligations.PullKeepsHostStorage := by
  intro n s t hs h
  have kept : SameHostStorage s t := sameHostStorage_closedUnderPull.execPull_rel h hs
  refine ⟨fun r => kept.reg 4 r (.inl rfl), kept.prescaler, kept.results, kept.answers.trans hs,
    fun sl r hr => kept.reg sl r (.inr ?_)⟩
  revert r
  decide

end Sys2Proof.Machine
end

section
/-! The invariants in the reset state (R26). -/

namespace Sys2Proof.Machine

open Sys2Proof

theorem clockInv_resetOf (inst : Instance) : ClockInv (State.resetOf inst) := by
  refine ⟨?_, Nat.add_pos_left (tickStep_pos inst) one⟩
  simp [State.resetOf]

theorem tickAhead_resetOf (inst : Instance) : TickAhead (State.resetOf inst) :=
  fun out_ne => absurd rfl out_ne

theorem oscInv_resetOf (inst : Instance) : OscInv (State.resetOf inst) := fun c => by
  simp [State.timer, State.resetOf]

theorem outputInv_resetOf (inst : Instance) : OutputInv (State.resetOf inst) :=
  .of_silent rfl rfl

theorem tableInv_resetOf (inst : Instance) : TableInv (State.resetOf inst) := nofun

/-- The noise register starts as the seed. -/
theorem noiseInv_resetOf {inst : Instance} (hw : inst.cfg.fbWhite.getLsbD 16 = true)
    (hp : inst.cfg.fbPeriodic.getLsbD 16 = true) (hs : inst.cfg.ngPreset ≠ 0) :
    NoiseInv (State.resetOf inst) := ⟨hw, hp, hs, hs⟩

/-- The reloads of `EX1` fit `NEXT_TICK`: its `TICK_STEP` is 12246345. -/
theorem reset_tickFits : tickFits State.reset.cfg := by
  change 44100 * 65536 / 236 + 65536 ≤ 2 ^ 32
  decide

/-- The periodic mask of `EX1`, `0x08000`, lacks bit 16. -/
theorem reset_not_noiseInv : ¬ NoiseInv State.reset := by
  rintro ⟨-, periodic, -⟩
  change (0x08000 : Mask).getLsbD 16 = true at periodic
  revert periodic
  decide

/-- Settles O57: each invariant holds in every reset state; with `EX1` the noise register's
fails at the periodic mask. -/
theorem resetMeetsInvariants : Obligations.ResetMeetsInvariants :=
  ⟨fun inst => ⟨clockInv_resetOf inst, tickAhead_resetOf inst, oscInv_resetOf inst,
      outputInv_resetOf inst, tableInv_resetOf inst, noiseInv_resetOf⟩,
    reset_tickFits, clockInv_resetOf ex1Instance, reset_not_noiseInv⟩

end Sys2Proof.Machine
end

section
/-! How the decoder, the opcode map and the formats of the words fit together (R60, R61, R65). -/

namespace Sys2Proof

/-! ## The bits a row fixes -/

theorem OpRow.hits_iff {row : OpRow} {w : CmdWord} :
    row.hits w = true ↔ w &&& row.mask = row.pattern := beq_iff_eq

/-- A field that the mask covers reads as the pattern's. -/
theorem OpRow.field_of_hits {row : OpRow} {w : CmdWord} (h : row.hits w = true) (start len : Nat)
    (covered : row.mask.extractLsb' start len = BitVec.allOnes len) :
    w.extractLsb' start len = row.pattern.extractLsb' start len := by
  rw [← OpRow.hits_iff.mp h, BitVec.extractLsb'_and, covered, BitVec.and_allOnes]

/-- Every row fixes `OP`. -/
theorem opField_of_hits {row : OpRow} (hr : row ∈ opRows) {w : CmdWord} (h : row.hits w = true) :
    opField w = opField row.pattern := by
  have covered : ∀ row ∈ opRows, row.mask.extractLsb' 24 8 = BitVec.allOnes 8 := by decide
  exact OpRow.field_of_hits h 24 8 (covered row hr)

/-- `OP` tells the rows apart. -/
theorem opRows_eq_of_opField : ∀ a ∈ opRows, ∀ b ∈ opRows,
    opField a.pattern = opField b.pattern → a = b := by decide

theorem opRows_nodup : opRows.Nodup := by decide

theorem opRows_eq_of_hits {a b : OpRow} (ha : a ∈ opRows) (hb : b ∈ opRows) {w : CmdWord}
    (haw : a.hits w = true) (hbw : b.hits w = true) : a = b :=
  opRows_eq_of_opField a ha b hb ((opField_of_hits ha haw).symm.trans (opField_of_hits hb hbw))

theorem Instr.row_mem_opRows (i : Instr) : i.row ∈ opRows := by
  cases i <;> simp [Instr.row, opRows]

/-- The family `EncodedWordMatchesRow`, over all commands. -/
theorem row_hits_encode (i : Instr) : i.row.hits (encode i) = true := by
  refine OpRow.hits_iff.mpr ?_
  cases i with
  | nop => exact Laws.EncodedWordMatchesRow.nop
  | reset => exact Laws.EncodedWordMatchesRow.reset
  | mode p => exact Laws.EncodedWordMatchesRow.mode p
  | setvol v => exact Laws.EncodedWordMatchesRow.setvol v
  | wrch c r imm => exact Laws.EncodedWordMatchesRow.wrch c r imm
  | rdch c r => exact Laws.EncodedWordMatchesRow.rdch c r
  | clrch c => exact Laws.EncodedWordMatchesRow.clrch c
  | wrtpm imm => exact Laws.EncodedWordMatchesRow.wrtpm imm
  | rdtmr => exact Laws.EncodedWordMatchesRow.rdtmr
  | pull n => exact Laws.EncodedWordMatchesRow.pull n

/-! ## What the decoder answers -/

/-- `OP` of each command (R61). -/
def Instr.op : Instr → Nat
  | .nop => 0
  | .reset => 1
  | .mode _ => 2
  | .setvol _ => 3
  | .wrch _ _ _ => 4
  | .rdch _ _ => 5
  | .clrch _ => 6
  | .wrtpm _ => 7
  | .rdtmr => 8
  | .pull _ => 9

theorem Instr.opField_pattern (i : Instr) : (opField i.row.pattern).toNat = i.op := by
  cases i <;> dsimp only [Instr.row, Instr.op] <;> rfl

/-- The command that `op` names, with the operands that stand in the fields of `w` (R60). -/
def commandNamed (op : Nat) (w : CmdWord) : Option Instr :=
  match op with
  | 0 => some .nop
  | 1 => some .reset
  | 2 => some (.mode (pField w))
  | 3 => some (.setvol (vField w))
  | 4 => some (.wrch (cField w) (rField w) (immField w))
  | 5 => some (.rdch (cField w) (rField w))
  | 6 => some (.clrch (cField w))
  | 7 => some (.wrtpm (immField w))
  | 8 => some .rdtmr
  | 9 => some (.pull (nField w))
  | _ => none

/-- The word is written as the command: it matches the command's row and holds its operands. -/
def Spells (w : CmdWord) (i : Instr) : Prop :=
  i.row.hits w = true ∧ commandNamed i.op w = some i

/-- An answer that the opcode map allows for a word. -/
def AnswerFits (w : CmdWord) : Except Reserved Instr → Prop
  | .ok i => Spells w i
  | .error _ => ∀ row ∈ opRows, row.hits w = false

theorem answerFits_ok {w : CmdWord} {i : Instr} (h : w &&& i.row.mask = i.row.pattern)
    (operands : commandNamed i.op w = some i) : AnswerFits w (.ok i) :=
  ⟨OpRow.hits_iff.mpr h, operands⟩

theorem decode_answerFits (w : CmdWord) : AnswerFits w (decode w) := by
  unfold decode
  refine iteInduction (fun h => answerFits_ok h rfl) fun nop => ?_
  refine iteInduction (fun h => answerFits_ok h rfl) fun reset => ?_
  refine iteInduction (fun h => answerFits_ok h rfl) fun mode => ?_
  refine iteInduction (fun h => answerFits_ok h rfl) fun setvol => ?_
  refine iteInduction (fun h => answerFits_ok h rfl) fun wrch => ?_
  refine iteInduction (fun h => answerFits_ok h rfl) fun rdch => ?_
  refine iteInduction (fun h => answerFits_ok h rfl) fun clrch => ?_
  refine iteInduction (fun h => answerFits_ok h rfl) fun wrtpm => ?_
  refine iteInduction (fun h => answerFits_ok h rfl) fun rdtmr => ?_
  refine iteInduction (fun h => answerFits_ok h rfl) fun pull => ?_
  have missed : ∀ row ∈ opRows, row.hits w = false := by
    simp only [opRows, OpRow.hits, List.forall_mem_cons, beq_eq_false_iff_ne, ne_eq]
    exact ⟨nop, reset, mode, setvol, wrch, rdch, clrch, wrtpm, rdtmr, pull, nofun⟩
  exact iteInduction (fun _ => missed) fun _ => missed

theorem spells_of_decode {w : CmdWord} {i : Instr} (h : decode w = .ok i) : Spells w i := by
  have fits := decode_answerFits w
  rw [h] at fits
  exact fits

theorem no_hit_of_decode {w : CmdWord} {e : Reserved} (h : decode w = .error e) :
    ∀ row ∈ opRows, row.hits w = false := by
  have fits := decode_answerFits w
  rw [h] at fits
  exact fits

theorem decode_of_hits {w : CmdWord} {row : OpRow} (hr : row ∈ opRows) (h : row.hits w = true) :
    ∃ i, decode w = .ok i ∧ i.row = row := by
  cases hd : decode w with
  | ok i =>
    obtain ⟨hit, -⟩ := spells_of_decode hd
    exact ⟨i, rfl, opRows_eq_of_hits i.row_mem_opRows hr hit h⟩
  | error e =>
    rw [no_hit_of_decode hd row hr] at h
    cases h

/-- A word is written as one command at most: its row names `OP`, and `OP` the command. -/
theorem decode_of_spells {w : CmdWord} {i : Instr} (h : Spells w i) : decode w = .ok i := by
  obtain ⟨hit, operands⟩ := h
  obtain ⟨j, hj, same_row⟩ := decode_of_hits i.row_mem_opRows hit
  obtain ⟨-, operands'⟩ := spells_of_decode hj
  have same_op : j.op = i.op := by
    rw [← j.opField_pattern, same_row, i.opField_pattern]
  rw [same_op, operands] at operands'
  rw [hj, Option.some.inj operands']

/-! ## The fields of an encoded word -/

theorem pField_profileBit (x : BitVec 31) (p : Profile) : pField (x ++ profileBit p) = p := by
  unfold pField
  rw [BitVec.getLsbD_append]
  cases p <;> rfl

theorem profileBit_pField (w : CmdWord) : profileBit (pField w) = w.extractLsb' 0 1 := by
  have bit_zero : w.getLsbD 0 = (w.extractLsb' 0 1 == 1#1) := BitVec.getLsbD_eq_extractLsb' w 0
  have one_bit : ∀ b : BitVec 1, profileBit (if b == 1#1 then .tg else .spk) = b := by decide
  rw [pField, bit_zero, one_bit]

theorem cField_append (op : BitVec 8) (c : BitVec 3) (r : BitVec 5) (imm : Word) :
    cField (op ++ c ++ r ++ imm) = c := by
  rw [cField, BitVec.extractLsb'_append_eq_of_le (by decide),
    BitVec.extractLsb'_append_eq_of_le (by decide)]
  exact BitVec.extractLsb'_append_eq_right

theorem rField_append (op : BitVec 8) (c : BitVec 3) (r : BitVec 5) (imm : Word) :
    rField (op ++ c ++ r ++ imm) = r := by
  rw [rField, BitVec.extractLsb'_append_eq_of_le (by decide)]
  exact BitVec.extractLsb'_append_eq_right

theorem immField_append (x : BitVec 16) (imm : Word) : immField (x ++ imm) = imm :=
  BitVec.extractLsb'_append_eq_right

theorem vField_append (x : BitVec 24) (v : BitVec 8) : vField (x ++ v) = v :=
  BitVec.extractLsb'_append_eq_right

theorem nField_append (op : BitVec 8) (n : BitVec 24) : nField (op ++ n) = n :=
  BitVec.extractLsb'_append_eq_right

theorem cField_append_zero (op : BitVec 8) (c : BitVec 3) : cField (op ++ c ++ 0#21) = c := by
  rw [cField, BitVec.extractLsb'_append_eq_of_le (by decide)]
  exact BitVec.extractLsb'_append_eq_right

/-- The word of a command holds its operands. -/
theorem commandNamed_encode (i : Instr) : commandNamed i.op (encode i) = some i := by
  cases i <;> simp only [commandNamed, Instr.op, encode]
  case mode p => rw [pField_profileBit]
  case setvol v => rw [vField_append]
  case wrch c r imm => rw [cField_append, rField_append, immField_append]
  case rdch c r => rw [cField_append, rField_append]
  case clrch c => rw [cField_append_zero]
  case wrtpm imm => rw [immField_append]
  case pull n => rw [nField_append]

theorem spells_encode (i : Instr) : Spells (encode i) i :=
  ⟨row_hits_encode i, commandNamed_encode i⟩

/-- Settles O1: the encoded word matches the command's row and holds its operands, and a word is written as
one command at most. -/
theorem decodeOfEncode : Obligations.DecodeOfEncode :=
  fun i => decode_of_spells (spells_encode i)

/-! ## A word is its fields, side by side -/

theorem append_three_fields {a b c : Nat} (w : BitVec (a + b + c)) :
    w.extractLsb' (b + c) a ++ w.extractLsb' c b ++ w.extractLsb' 0 c = w := by
  rw [BitVec.extractLsb'_append_extractLsb'_eq_extractLsb' (Nat.add_comm b c)]
  exact BitVec.extractLsb'_append_extractLsb'

theorem append_channel_fields (w : CmdWord) :
    opField w ++ cField w ++ rField w ++ immField w = w := by
  have channel : opField w ++ cField w = w.extractLsb' 21 11 :=
    BitVec.extractLsb'_append_extractLsb'_eq_extractLsb' rfl
  rw [channel]
  exact append_three_fields (a := 11) (b := 5) (c := 16) w

theorem eq_pattern_of_hits {row : OpRow} {w : CmdWord} (h : row.hits w = true)
    (covered : row.mask = BitVec.allOnes 32) : w = row.pattern := by
  rw [← OpRow.hits_iff.mp h, covered, BitVec.and_allOnes]

theorem encode_of_spells {w : CmdWord} {i : Instr} (h : Spells w i) : encode i = w := by
  obtain ⟨hit, operands⟩ := h
  have op : opField w = opField i.row.pattern := opField_of_hits i.row_mem_opRows hit
  cases i <;> cases operands <;> dsimp only [Instr.row] at hit op
  case nop | reset | rdtmr => exact (eq_pattern_of_hits hit rfl).symm
  case mode =>
    have unused : w.extractLsb' 1 23 = 0#23 := OpRow.field_of_hits hit 1 23 rfl
    calc encode (.mode (pField w))
      _ = opField w ++ w.extractLsb' 1 23 ++ w.extractLsb' 0 1 := by
        rw [op, unused, ← profileBit_pField]; rfl
      _ = w := append_three_fields (a := 8) (b := 23) (c := 1) w
  case setvol =>
    have unused : w.extractLsb' 8 16 = 0#16 := OpRow.field_of_hits hit 8 16 rfl
    calc encode (.setvol (vField w))
      _ = opField w ++ w.extractLsb' 8 16 ++ vField w := by rw [op, unused]; rfl
      _ = w := append_three_fields (a := 8) (b := 16) (c := 8) w
  case wrch =>
    calc encode (.wrch (cField w) (rField w) (immField w))
      _ = opField w ++ cField w ++ rField w ++ immField w := by rw [op]; rfl
      _ = w := append_channel_fields w
  case rdch =>
    have unused : immField w = 0#16 := OpRow.field_of_hits hit 0 16 rfl
    calc encode (.rdch (cField w) (rField w))
      _ = opField w ++ cField w ++ rField w ++ immField w := by rw [op, unused]; rfl
      _ = w := append_channel_fields w
  case clrch =>
    have unused : w.extractLsb' 0 21 = 0#21 := OpRow.field_of_hits hit 0 21 rfl
    calc encode (.clrch (cField w))
      _ = opField w ++ cField w ++ w.extractLsb' 0 21 := by rw [op, unused]; rfl
      _ = w := append_three_fields (a := 8) (b := 3) (c := 21) w
  case wrtpm =>
    have unused : w.extractLsb' 16 8 = 0#8 := OpRow.field_of_hits hit 16 8 rfl
    calc encode (.wrtpm (immField w))
      _ = opField w ++ w.extractLsb' 16 8 ++ immField w := by rw [op, unused]; rfl
      _ = w := append_three_fields (a := 8) (b := 8) (c := 16) w
  case pull =>
    calc encode (.pull (nField w))
      _ = opField w ++ nField w := by rw [op]; rfl
      _ = w := BitVec.extractLsb'_append_extractLsb'

/-- Settles O2: `OP` and the reserved fields of the word are those of the row, the rest are the operands. -/
theorem encodeOfDecode : Obligations.EncodeOfDecode :=
  fun _ _ h => encode_of_spells (spells_of_decode h)

/-- Settles O3: the decoder's answers fit the map, and a word that matches two rows would have both values
of `OP`. -/
theorem decodeFollowsOpcodeRows : Obligations.DecodeFollowsOpcodeRows := by
  refine ⟨fun w row hr h => decode_of_hits hr h, fun w i h => ?_, ?_⟩
  · obtain ⟨hit, -⟩ := spells_of_decode h
    exact ⟨i.row_mem_opRows, hit⟩
  · refine opRows_nodup.imp_of_mem fun ha hb distinct w ⟨haw, hbw⟩ => ?_
    exact distinct (opRows_eq_of_hits ha hb haw hbw)

/-- A word on no row is no command (R65). -/
theorem decode_of_no_hit {w : CmdWord} (h : ∀ row ∈ opRows, row.hits w = false) :
    ∃ e, decode w = .error e := by
  cases hd : decode w with
  | error e => exact ⟨e, rfl⟩
  | ok i =>
    obtain ⟨hit, -⟩ := spells_of_decode hd
    rw [h i.row i.row_mem_opRows] at hit
    cases hit

end Sys2Proof
end

section
/-! Reserved words in a step, and the operands of commands: channel and register indices, the noise control
value, the attenuation (R62 to R65, R68, R69). -/

namespace Sys2Proof.Machine

open Sys2Proof

/-! ## A reserved word -/

theorem step_of_reserved {s t : State} {w : CmdWord} {e : Reserved}
    (taken : s.fetch = some (w, t)) (reserved : decode w = .error e) : step s = .next t := by
  simp only [step, taken, reserved, execReserved, execNop]

/-- Settles O5: the decoder answers an error, and the step is `NOP` after the word is taken. -/
theorem reservedWordActsAsNop : Obligations.ReservedWordActsAsNop := by
  intro s w ws port missed
  obtain ⟨e, reserved⟩ := decode_of_no_hit missed
  exact ⟨⟨e, reserved⟩, step_of_reserved (State.fetch_cons port) reserved⟩

/-! ## Register and channel indices -/

theorem regOf_eq_some_iff (r : BitVec 5) (q : Reg) : regOf r = some q ↔ q.index.val = r.toNat := by
  refine ⟨regOf_index r q, fun index => ?_⟩
  obtain ⟨q', named⟩ := regOf_isSome (index ▸ q.index.isLt)
  have same_index : q'.index = q.index := Fin.ext ((regOf_index r q' named).trans index.symm)
  rw [named, Reg.index_injective same_index]

theorem slotOf_val (c : BitVec 3) : (slotOf c).val = if c.toNat < 4 then c.toNat else 4 := by
  split
  · next real => exact slotOf_real real
  · next reserved => rw [slotOf_sentinel (Nat.le_of_not_lt reserved)]; rfl

section
variable (s : State) (sl : Fin 5) {r : BitVec 5} (v : Word)

theorem State.readIndexed_of_index {q : Reg} (index : q.index.val = r.toNat) :
    s.readIndexed sl r = s.reg sl q := by
  rw [State.readIndexed, (regOf_eq_some_iff r q).mpr index]

theorem State.writeIndexed_of_index {q : Reg} (index : q.index.val = r.toNat) :
    s.writeIndexed sl r v = s.setReg sl q v := by
  rw [State.writeIndexed, (regOf_eq_some_iff r q).mpr index]

theorem State.readIndexed_of_reserved (h : 23 ≤ r.toNat) : s.readIndexed sl r = 0 := by
  rw [State.readIndexed, regOf_eq_none h]

theorem State.writeIndexed_of_reserved (h : 23 ≤ r.toNat) : s.writeIndexed sl r v = s := by
  rw [State.writeIndexed, regOf_eq_none h]

/-- Read after write through a register index. -/
theorem State.reg_writeIndexed (r : BitVec 5) (sl' : Fin 5) (q : Reg) :
    (s.writeIndexed sl r v).reg sl' q =
      if sl' = sl ∧ q.index.val = r.toNat then v else s.reg sl' q := by
  cases named : regOf r with
  | some p =>
    have same : q = p ↔ q.index.val = r.toNat := by
      rw [← regOf_eq_some_iff, named, Option.some_inj, eq_comm]
    simp only [s.writeIndexed_of_index sl v (regOf_index r p named), State.reg_setReg, same]
  | none =>
    have other : q.index.val ≠ r.toNat := fun index => by
      rw [(regOf_eq_some_iff r q).mpr index] at named
      cases named
    rw [State.writeIndexed, named, if_neg fun h => other h.2]

end

/-! ## The register commands -/

theorem exec_wrch (c : BitVec 3) (r : BitVec 5) (imm : Word) (s : State) :
    exec (.wrch c r imm) s = .next (s.writeIndexed (slotOf c) r imm) := rfl

theorem exec_rdch (c : BitVec 3) (r : BitVec 5) (s : State) :
    exec (.rdch c r) s = .next (s.returns (.half (s.readIndexed (slotOf c) r))) := rfl

theorem exec_clrch (c : BitVec 3) (s : State) :
    exec (.clrch c) s = .next (s.clearSlot (slotOf c)) := rfl

/-- Settles O18: the three commands of R85 to R87 at slot 4. -/
theorem outOfRangeChannelIsSentinel : Obligations.OutOfRangeChannelIsSentinel := by
  refine ⟨slotOf_val, fun c r imm s reserved => ?_⟩
  rw [exec_wrch, exec_rdch, exec_clrch, slotOf_sentinel reserved]
  refine ⟨⟨_, rfl, fun q index => ?_, fun sl q other => ?_⟩,
    ⟨_, rfl, fun q => ?_, fun sl q other => ?_⟩, fun q index => ?_⟩
  · rw [State.reg_writeIndexed, if_pos ⟨rfl, index⟩]
  · rw [State.reg_writeIndexed, if_neg fun h => other h.1]
  · rw [State.reg_clearSlot, if_pos rfl]
  · rw [State.reg_clearSlot, if_neg other]
  · rw [s.readIndexed_of_index 4 index]; rfl

/-- Settles O19: an index that names no register leaves the write without a target and the read at 0. -/
theorem reservedRegisterIndexIsInert : Obligations.ReservedRegisterIndexIsInert := by
  intro c r imm s reserved
  rw [exec_wrch, exec_rdch, s.writeIndexed_of_reserved _ imm reserved,
    s.readIndexed_of_reserved _ reserved]
  exact ⟨rfl, rfl⟩

/-! ## The noise control value and the attenuation -/

theorem noiseMask_eq (cfg : Config) (f : Nat) :
    noiseMask cfg f = if f / 4 % 2 = 1 then cfg.fbWhite else cfg.fbPeriodic := by
  simp only [noiseMask, Nat.testBit_eq_decide_div_mod_eq, decide_eq_true_eq, Nat.reducePow]

theorem noiseInput_eq (f f2 : Nat) :
    noiseInput f f2 = if f % 4 = 0 then 32 else if f % 4 = 1 then 64 else if f % 4 = 2 then 128
      else 2 * f2 := by
  have low_bits : f % 4 < 4 := Nat.mod_lt f (by decide)
  unfold noiseInput
  interval_cases f % 4 <;> rfl

theorem volIndex_add_top (v : Word) : (volIndex v).val + (v.extractLsb' 12 4).toNat = 15 := by
  have top : (v.extractLsb' 12 4).toNat = v.toNat / 4096 := by
    rw [BitVec.extractLsb'_toNat, Nat.shiftRight_eq_div_pow]
    omega
  change 15 - v.toNat / 4096 + _ = 15
  omega

/-- Settles O20: the 23 rows of R63 by evaluation, the rest for every value. -/
theorem operandTables : Obligations.OperandTables :=
  ⟨by decide, fun _ => regOf_eq_none, regOf_eq_some_iff,
    fun cfg f f2 => ⟨noiseMask_eq cfg f, noiseInput_eq f f2⟩, volIndex_add_top⟩

end Sys2Proof.Machine
end

section
/-! The commands of the host other than `PULL`: how a step reaches them (R90), the control commands (R80 to
R84), channel register access (R85 to R87) and the music timer (R88, R89). -/

namespace Sys2Proof.Machine

open Sys2Proof

/-! ## A step and the port -/

theorem step_of_no_word {s : State} (port : s.port = []) : step s = .next s := by
  simp only [step, State.fetch, port]

theorem step_of_command {s t : State} {w : CmdWord} {i : Instr}
    (taken : s.fetch = some (w, t)) (command : decode w = .ok i) : step s = exec i t := by
  simp only [step, taken, command]

/-- A word of 32 bits is presented as it is. -/
theorem State.withFetchWord_toNat (s : State) (w : CmdWord) :
    s.withFetchWord 32 w.toNat = s.present w := by
  rw [State.withFetchWord, Nat.mod_eq_of_lt w.isLt, BitVec.ofNat_toNat, BitVec.setWidth_eq]

/-- Settles O6: the port is taken apart by `fetch`, the word by the decoder. -/
theorem stepRunsDecodedCommand : Obligations.StepRunsDecodedCommand :=
  fun _ _ _ _ port command => step_of_command (State.fetch_cons port) command

/-- Settles O7: the presented word is the encoded one, and that decodes to the command. -/
theorem presentedCommandRunsNext : Obligations.PresentedCommandRunsNext := by
  refine ⟨fun _ => step_of_no_word, fun s i => ?_⟩
  rw [State.withFetchWord_toNat]
  exact step_of_command (s.fetch_present (encode i)) (decodeOfEncode i)

/-! ## What each command answers -/

theorem exec_nop (s : State) : exec .nop s = .next s := rfl

theorem exec_reset (s : State) :
    exec .reset s = .next { State.resetOf s.inst with port := s.port, answers := s.answers } := rfl

theorem exec_mode (p : Profile) (s : State) :
    exec (.mode p) s = .next { s.clearOsc with profile := p } := rfl

theorem exec_setvol (v : BitVec 8) (s : State) :
    exec (.setvol v) s = .next { s with volTab := some s.cfg.volTabFn[v.toNat] } := rfl

theorem exec_wrtpm (imm : Word) (s : State) :
    exec (.wrtpm imm) s = .next { s with ticksPerMusicTimer := imm } := rfl

theorem exec_rdtmr (s : State) : exec .rdtmr s = .next (s.returns (.word s.musicTimer)) := rfl

/-- Settles O8: the meaning of `NOP` is its own argument. -/
theorem nopChangesNothing : Obligations.NopChangesNothing := exec_nop

/-- Settles O21: one field is written, one result is appended. -/
theorem musicTimerCommands : Obligations.MusicTimerCommands := ⟨exec_wrtpm, exec_rdtmr⟩

/-- Settles O58: each of the nine commands has its next state written out. -/
theorem onlyPullCanStop : Obligations.OnlyPullCanStop := by
  intro i s not_pull
  cases i with
  | nop => exact ⟨_, exec_nop s⟩
  | reset => exact ⟨_, exec_reset s⟩
  | mode p => exact ⟨_, exec_mode p s⟩
  | setvol v => exact ⟨_, exec_setvol v s⟩
  | wrch c r imm => exact ⟨_, exec_wrch c r imm s⟩
  | rdch c r => exact ⟨_, exec_rdch c r s⟩
  | clrch c => exact ⟨_, exec_clrch c s⟩
  | wrtpm imm => exact ⟨_, exec_wrtpm imm s⟩
  | rdtmr => exact ⟨_, exec_rdtmr s⟩
  | pull n => exact absurd rfl (not_pull n)

/-! ## The control commands -/

/-- R26: every register of every slot, the sentinel among them, is 0 after reset. -/
theorem State.reg_resetOf (inst : Instance) (sl : Fin 5) (r : Reg) :
    (State.resetOf inst).reg sl r = 0 := by
  simp [State.reg, State.resetOf]

/-- A cleared oscillator's phase bit and countdown. -/
theorem oscillator_cleared {s : State} (phase : s.phase = Vector.replicate 4 false)
    (timerCount : s.timerCount = Vector.replicate 4 0) (c : Fin 4) :
    s.phase[c] = false ∧ s.timer c = 0 := by
  simp [State.timer, phase, timerCount]

/-- Settles O9: the fields of `State.resetOf`, the vectors read entry by entry. -/
theorem resetGivesResetState : Obligations.ResetGivesResetState := fun s =>
  ⟨_, exec_reset s, State.reg_resetOf s.inst, rfl, oscillator_cleared rfl rfl, rfl, rfl, rfl, rfl, rfl,
    rfl, rfl, rfl⟩

/-- Settles O10: the two fields that `execReset` carries over; the rest is `State.resetOf`. -/
theorem resetKeepsHostInputs : Obligations.ResetKeepsHostInputs := fun s =>
  ⟨_, exec_reset s, rfl, rfl, rfl, rfl, rfl, rfl⟩

/-- Settles O11: the oscillators are cleared, and the register file is the one that stood there. -/
theorem modeSetsProfileAndClearsOscillators : Obligations.ModeSetsProfileAndClearsOscillators :=
  fun p s =>
    ⟨_, exec_mode p s, rfl, oscillator_cleared rfl rfl, State.reg_congr rfl, ⟨rfl, rfl, rfl⟩, rfl, rfl,
      ⟨rfl, rfl, rfl, rfl, rfl⟩, ⟨rfl, rfl, rfl, rfl⟩⟩

/-- Settles O12: `VOLTAB` is the one field written, with the row of `VOLTAB_FN` as it stands. -/
theorem setvolReplacesTable : Obligations.SetvolReplacesTable := fun v s =>
  ⟨_, exec_setvol v s, ⟨_, rfl, fun _ => rfl⟩, State.reg_congr rfl, ⟨rfl, rfl⟩, ⟨rfl, rfl, rfl⟩, rfl, rfl,
    ⟨rfl, rfl, rfl, rfl, rfl⟩, ⟨rfl, rfl, rfl, rfl⟩⟩

/-! ## The volume tables (R84) -/

theorem tableFalls_volTabFn (inst : Instance) (v : Fin 256) :
    tableFalls inst.cfg.volTabFn[v] = true := by
  obtain ⟨-, -, -, -, -, tables⟩ := checks_of_wellFormed inst
  rw [Config.volTabOk, Bool.and_eq_true, List.all_eq_true] at tables
  exact tables.1 _ (by simp)

/-- `floor(K * 0)` is 0, whatever the constant `K` of the configuration. -/
theorem volTabFn_zero_top (inst : Instance) : (inst.cfg.volTabFn[(0 : Fin 256)])[0] = 0 := by
  obtain ⟨-, -, -, -, -, tables⟩ := checks_of_wellFormed inst
  rw [Config.volTabOk, Bool.and_eq_true, topProportional_iff] at tables
  obtain ⟨-, p, q, -, proportional⟩ := tables
  have top : inst.cfg.volTop 0 = 0 := by
    rw [proportional 0 (by decide), Nat.mul_zero, Nat.zero_div, Nat.min_zero]
  exact BitVec.eq_of_toNat_eq ((inst.cfg.volTop_eq 0).symm.trans top)

theorem entry_le_of_tableFalls {t : VolTab} (h : tableFalls t = true) {i j : Fin 16} (le : i ≤ j) :
    t[j] ≤ t[i] := by
  obtain rfl | lt := le.eq_or_lt
  · exact BitVec.le_refl _
  · exact ((tableFalls_iff t).mp h).1 i j lt

/-- A table that falls from 0 is silent throughout. -/
theorem entry_eq_zero_of_tableFalls {t : VolTab} (h : tableFalls t = true) (top : t[0] = 0)
    (i : Fin 16) : t[i] = 0 := by
  have le_top : t[i] ≤ t[0] := entry_le_of_tableFalls h (Fin.zero_le i)
  rw [top] at le_top
  exact BitVec.le_zero_iff.mp le_top

/-- Settles O13: (a) and (b) are `tableFalls`; by (c) the table of volume 0 starts at 0, and it falls. -/
theorem setvolTableFalls : Obligations.SetvolTableFalls := by
  intro v s
  have falls : tableFalls s.cfg.volTabFn[v.toNat] = true := tableFalls_volTabFn s.inst v.toFin
  refine ⟨_, _, exec_setvol v s, rfl, fun i j => entry_le_of_tableFalls falls,
    ((tableFalls_iff _).mp falls).2, ?_⟩
  rintro rfl
  exact entry_eq_zero_of_tableFalls falls (volTabFn_zero_top s.inst)

/-! ## Channel register access -/

/-- An update of the register file alone. -/
theorem SameButRegisters.of_ch (s : State) (ch : Vector (Vector Word 23) 5) :
    SameButRegisters s { s with ch := ch } :=
  ⟨⟨rfl, rfl⟩, ⟨rfl, rfl, rfl⟩, ⟨rfl, rfl, rfl⟩, ⟨rfl, rfl, rfl, rfl, rfl⟩, ⟨rfl, rfl, rfl, rfl⟩⟩

theorem State.writeIndexed_sameButRegisters (s : State) (sl : Fin 5) (r : BitVec 5) (v : Word) :
    SameButRegisters s (s.writeIndexed sl r v) := by
  unfold State.writeIndexed
  split
  · exact .of_ch s _
  · exact .of_ch s s.ch

theorem State.writeIndexed_results (s : State) (sl : Fin 5) (r : BitVec 5) (v : Word) :
    (s.writeIndexed sl r v).results = s.results := by
  obtain ⟨-, -, -, -, -, -, results, -⟩ := s.writeIndexed_sameButRegisters sl r v
  exact results

/-- R85: what was written through a register index is read back through it. -/
theorem State.readIndexed_writeIndexed (s : State) (sl : Fin 5) {r : BitVec 5} (v : Word)
    (h : r.toNat < 23) : (s.writeIndexed sl r v).readIndexed sl r = v := by
  obtain ⟨q, named⟩ := regOf_isSome h
  have index : q.index.val = r.toNat := regOf_index r q named
  rw [State.readIndexed_of_index _ _ index, State.reg_writeIndexed, if_pos ⟨rfl, index⟩]

/-- Settles O14: read after write, and the frame of an indexed write. -/
theorem wrchWritesOneRegister : Obligations.WrchWritesOneRegister := fun c r imm s =>
  ⟨_, exec_wrch c r imm s, s.reg_writeIndexed (slotOf c) imm r,
    s.writeIndexed_sameButRegisters (slotOf c) r imm⟩

/-- Settles O15: an indexed read, at an index that names a register and at one that names none. -/
theorem rdchReturnsRegister : Obligations.RdchReturnsRegister := fun c r s =>
  ⟨_, exec_rdch c r s, fun _ => s.readIndexed_of_index (slotOf c),
    s.readIndexed_of_reserved (slotOf c)⟩

/-- Settles O16: read after clear, and the frame of a write to the register file. -/
theorem clrchClearsOneSlot : Obligations.ClrchClearsOneSlot := fun c s =>
  ⟨_, exec_clrch c s, s.reg_clearSlot (slotOf c), .of_ch s _⟩

/-- Settles O17: both indices resolve to one slot, where the register is read back. -/
theorem writtenPatternIsReadBack : Obligations.WrittenPatternIsReadBack := by
  intro c d r imm s same_slot named
  rw [exec_wrch, andThen_next, exec_rdch, ← same_slot, State.readIndexed_writeIndexed _ _ _ named]
  exact ⟨_, rfl, by rw [State.returns_results, State.writeIndexed_results]⟩

end Sys2Proof.Machine
end

section
/-! The envelope engine (R100 to R107): ramps, note-off, the hull step, and the walk of an evaluation. -/

namespace Sys2Proof.Machine

open Sys2Proof

/-! ## Frames of a slot -/

theorem SameButRegisters.trans {s t u : State} (h : SameButRegisters s t)
    (h' : SameButRegisters t u) : SameButRegisters s u := by
  simp only [SameButRegisters, SameOscillators, SameMusicTimer, SameSetup, SameSound, SameHost] at *
  simp_all

section
variable {sl : Fin 5} {rs : List Reg} {s t : State}

theorem ChangesOnly.refl (sl : Fin 5) (rs : List Reg) (s : State) : ChangesOnly sl rs s s :=
  ⟨fun _ _ _ => rfl, .of_ch s s.ch⟩

theorem ChangesOnly.trans {u : State} (h : ChangesOnly sl rs s t) (h' : ChangesOnly sl rs t u) :
    ChangesOnly sl rs s u :=
  ⟨fun sl' r hr => (h'.1 sl' r hr).trans (h.1 sl' r hr), h.2.trans h'.2⟩

theorem ChangesOnly.mono {rs' : List Reg} (h : ChangesOnly sl rs s t) (sub : rs ⊆ rs') :
    ChangesOnly sl rs' s t :=
  ⟨fun sl' r hr => h.1 sl' r (hr.imp_right fun out inside => out (sub inside)), h.2⟩

/-- One more write to a register of the list. -/
theorem ChangesOnly.setReg (h : ChangesOnly sl rs s t) {r : Reg} (listed : r ∈ rs) (v : Word) :
    ChangesOnly sl rs s (t.setReg sl r v) := by
  refine h.trans ⟨fun sl' q hq => t.reg_setReg_ne v (hq.imp_right ?_), .of_ch t _⟩
  rintro unlisted rfl
  exact unlisted listed

theorem setReg_changesOnly (s : State) (sl : Fin 5) (r : Reg) (v : Word) :
    ChangesOnly sl [r] s (s.setReg sl r v) :=
  (ChangesOnly.refl sl [r] s).setReg (List.mem_singleton.mpr rfl) v

theorem ChangesOnly.reg_eq (h : ChangesOnly sl rs s t) {r : Reg} (unlisted : r ∉ rs) :
    t.reg sl r = s.reg sl r :=
  h.1 sl r (.inr unlisted)

theorem ChangesOnly.cfg_eq (h : ChangesOnly sl rs s t) : t.cfg = s.cfg := by
  obtain ⟨-, -, -, ⟨inst, -, -⟩, -, -⟩ := h
  rw [State.cfg, inst]

end

/-! ## The two ramps -/

/-- Settles O23: each ramp is one write, of a sum of two words. -/
theorem rampsWrap : Obligations.RampsWrap := fun sl s =>
  ⟨⟨by rw [volumeRamp, State.reg_setReg_self, BitVec.toNat_add], setReg_changesOnly s sl _ _⟩,
    by rw [baseRamp, State.reg_setReg_self, BitVec.toNat_add], setReg_changesOnly s sl _ _⟩

/-! ## A counter of 0, of 1 and of more -/

theorem toNat_pred_of_two_le {w : Word} (h : 2 ≤ w.toNat) :
    w ≠ 0 ∧ w - 1 ≠ 0 ∧ (w - 1).toNat = w.toNat - 1 := by
  refine ⟨?_, ?_, ?_⟩ <;> bv_omega

/-! ## Note-off -/

section
variable {sl : Fin 5} {s : State}

theorem noteOff_of_none (none : s.reg sl .noteLength = 0) : noteOff sl s = s := if_pos none

theorem noteOff_of_last (last : s.reg sl .noteLength = 1) :
    noteOff sl s =
      ((s.setReg sl .noteLength 0).setReg sl .hullOffset 16).setReg sl .hullCounter 1 := by
  simp [noteOff, last]

theorem noteOff_of_more (more : 2 ≤ (s.reg sl .noteLength).toNat) :
    noteOff sl s = s.setReg sl .noteLength (s.reg sl .noteLength - 1) := by
  obtain ⟨pending, goes_on, -⟩ := toNat_pred_of_two_le more
  simp only [noteOff, if_neg pending, State.reg_setReg_self, if_neg goes_on]

end

/-- Settles O24: the note length is 0, above 1, or 1. -/
theorem noteOffStartsRelease : Obligations.NoteOffStartsRelease := by
  refine fun sl s => ⟨fun none => noteOff_of_none (BitVec.eq_of_toNat_eq none), fun more => ?_,
    fun last => ?_⟩
  · obtain ⟨-, -, counted⟩ := toNat_pred_of_two_le more
    rw [noteOff_of_more more, State.reg_setReg_self]
    exact ⟨counted, setReg_changesOnly s sl _ _⟩
  · rw [noteOff_of_last (BitVec.eq_of_toNat_eq last)]
    refine ⟨by simp [State.reg_setReg], by simp [State.reg_setReg], State.reg_setReg_self .., ?_⟩
    exact (((ChangesOnly.refl sl _ s).setReg (by decide) 0).setReg (by decide) 16).setReg (by decide) 1

/-! ## The hull step -/

section
variable {sl : Fin 5} {s : State}

theorem hullStep_of_parked (parked : s.reg sl .hullCounter = 0) : hullStep sl s = .next s :=
  if_pos parked

theorem hullStep_of_last (last : s.reg sl .hullCounter = 1) :
    hullStep sl s = hullEval sl (s.setReg sl .hullCounter 0) := by
  simp [hullStep, last]

theorem hullStep_of_waiting (waiting : 2 ≤ (s.reg sl .hullCounter).toNat) :
    hullStep sl s = .next (s.setReg sl .hullCounter (s.reg sl .hullCounter - 1)) := by
  obtain ⟨running, goes_on, -⟩ := toNat_pred_of_two_le waiting
  simp only [hullStep, if_neg running, State.reg_setReg_self, if_neg goes_on]

end

/-- Settles O25: the counter is 0, above 1, or 1. -/
theorem hullStepCountsDown : Obligations.HullStepCountsDown := by
  refine fun sl s => ⟨fun parked => hullStep_of_parked (BitVec.eq_of_toNat_eq parked), fun waiting => ?_,
    fun last => hullStep_of_last (BitVec.eq_of_toNat_eq last)⟩
  obtain ⟨-, -, counted⟩ := toNat_pred_of_two_le waiting
  exact ⟨_, hullStep_of_waiting waiting, by rwa [State.reg_setReg_self], setReg_changesOnly s sl _ _⟩

/-! ## One pair of the walk -/

/-- The cursor on the next pair: what `advanceHull` answers where there is room (`advanceHull_cases`). -/
abbrev nextPair (sl : Fin 5) (s : State) : State :=
  s.setReg sl .hullOffset (s.reg sl .hullOffset + 4)

/-- A pair the walk can take: both words lie in the ROM, and the cursor can move past them (R42, R104). -/
structure PairAt (sl : Fin 5) (s : State) (a b : Word) : Prop where
  first : s.cfg.hull[hullIndex sl s]? = some a
  second : s.cfg.hull[hullIndex sl s + 1]? = some b
  room : (s.reg sl .hullOffset).toNat + 4 ≤ 65535

section
variable {sl : Fin 5} {s : State} {a b : Word}

theorem hullLoop_of_pair (pair : PairAt sl s a b) (fuel : Nat) :
    hullLoop sl (fuel + 1) s =
      if b = 0xFFFF then hullLoop sl fuel (holdPair sl a (nextPair sl s))
      else .next (rampPair sl a b (nextPair sl s)) := by
  obtain ⟨first, second, room⟩ := pair
  simp only [hullLoop, hullRead, first, second, andThen_next, advanceHull, if_neg (Nat.not_lt.mpr room)]

/-- The bound on the iterations plays no part in whether the first pair can be taken. -/
theorem pairAt_or_bounds (sl : Fin 5) (s : State) :
    (∃ a b, PairAt sl s a b) ∨ ∀ fuel, hullLoop sl (fuel + 1) s = .fault .hullBounds := by
  refine or_iff_not_imp_left.mpr fun no_pair fuel => ?_
  obtain fault | ⟨a, b, first, second, room, -⟩ := hullLoop_succ_cases sl fuel s
  · exact fault
  · exact absurd ⟨a, b, first, second, room⟩ no_pair

theorem nextPair_cursor (pair : PairAt sl s a b) :
    ((nextPair sl s).reg sl .hullOffset).toNat = (s.reg sl .hullOffset).toNat + 4 := by
  have room := pair.room
  rw [State.reg_setReg_self]
  bv_omega

theorem holdPair_volume (sl : Fin 5) (a : Word) (s : State) :
    (holdPair sl a s).reg sl .volume = a := by
  unfold holdPair
  split <;> simp [State.reg_setReg]

theorem holdPair_volumeDelta (sl : Fin 5) (a : Word) (s : State) :
    (holdPair sl a s).reg sl .volumeDelta = if a = 0 then 0 else s.reg sl .volumeDelta := by
  unfold holdPair
  split <;> simp [State.reg_setReg]

theorem holdPair_changesOnly (sl : Fin 5) (a : Word) (s : State) :
    ChangesOnly sl [.volume, .volumeDelta] s (holdPair sl a s) := by
  have level_set : ChangesOnly sl [.volume, .volumeDelta] s (s.setReg sl .volume a) :=
    (ChangesOnly.refl sl _ s).setReg (by decide) a
  unfold holdPair
  split
  · exact level_set.setReg (by decide) 0
  · exact level_set

theorem rampPair_volumeDelta (sl : Fin 5) (a b : Word) (s : State) :
    (rampPair sl a b s).reg sl .volumeDelta = a := by
  simp [rampPair, State.reg_setReg]

theorem rampPair_hullCounter (sl : Fin 5) (a b : Word) (s : State) :
    (rampPair sl a b s).reg sl .hullCounter = b :=
  State.reg_setReg_self ..

theorem rampPair_changesOnly (sl : Fin 5) (a b : Word) (s : State) :
    ChangesOnly sl [.volumeDelta, .hullCounter] s (rampPair sl a b s) :=
  ((ChangesOnly.refl sl _ s).setReg (by decide) a).setReg (by decide) b

theorem holdPair_cursor (pair : PairAt sl s a b) :
    ((holdPair sl a (nextPair sl s)).reg sl .hullOffset).toNat =
      (s.reg sl .hullOffset).toNat + 4 := by
  rw [(holdPair_changesOnly sl a _).reg_eq (by decide), nextPair_cursor pair]

theorem rampPair_cursor (pair : PairAt sl s a b) :
    ((rampPair sl a b (nextPair sl s)).reg sl .hullOffset).toNat =
      (s.reg sl .hullOffset).toNat + 4 := by
  rw [(rampPair_changesOnly sl a b _).reg_eq (by decide), nextPair_cursor pair]

theorem holdPair_nextPair_changesOnly (sl : Fin 5) (a : Word) (s : State) :
    ChangesOnly sl [.volume, .volumeDelta, .hullOffset] s (holdPair sl a (nextPair sl s)) :=
  ((setReg_changesOnly s sl _ _).mono (by decide)).trans
    ((holdPair_changesOnly sl a _).mono (by decide))

theorem rampPair_nextPair_changesOnly (sl : Fin 5) (a b : Word) (s : State) :
    ChangesOnly sl [.volumeDelta, .hullCounter, .hullOffset] s (rampPair sl a b (nextPair sl s)) :=
  ((setReg_changesOnly s sl _ _).mono (by decide)).trans
    ((rampPair_changesOnly sl a b _).mono (by decide))

end

/-! ## The bound of the walk -/

/-- R105: a walk whose bound covers every pair before the cursor would pass 65535 is not ended by it. -/
theorem hullLoop_succ_of_covered {sl : Fin 5} {fuel : Nat} {s : State}
    (covered : 65535 < (s.reg sl .hullOffset).toNat + 4 * (fuel + 1)) :
    hullLoop sl (fuel + 1) s = hullLoop sl fuel s := by
  induction fuel generalizing s with
  | zero =>
    obtain ⟨a, b, pair⟩ | bounds := pairAt_or_bounds sl s
    · have room := pair.room
      omega
    · exact bounds 0
  | succ k ih =>
    obtain ⟨a, b, pair⟩ | bounds := pairAt_or_bounds sl s
    · have goes_on : hullLoop sl (k + 1) (holdPair sl a (nextPair sl s)) =
          hullLoop sl k (holdPair sl a (nextPair sl s)) :=
        ih (by rw [holdPair_cursor pair]; omega)
      rw [hullLoop_of_pair pair, hullLoop_of_pair pair, goes_on]
    · rw [bounds, bounds]

theorem hullEval_eq_hullLoop_succ (sl : Fin 5) (s : State) :
    hullEval sl s = hullLoop sl (16383 + 1) s := rfl

/-- The walk after a hold pair is a whole evaluation from the next pair. -/
theorem hullEval_of_hold {sl : Fin 5} {s : State} {a : Word} (pair : PairAt sl s a 0xFFFF) :
    hullEval sl s = hullEval sl (holdPair sl a (nextPair sl s)) := by
  rw [hullEval_eq_hullLoop_succ, hullLoop_of_pair pair, if_pos rfl]
  exact (hullLoop_succ_of_covered (by omega)).symm

theorem hullEval_of_ramp {sl : Fin 5} {s : State} {a b : Word} (pair : PairAt sl s a b)
    (ramp : b ≠ 0xFFFF) : hullEval sl s = .next (rampPair sl a b (nextPair sl s)) := by
  rw [hullEval_eq_hullLoop_succ, hullLoop_of_pair pair, if_neg ramp]

/-- Settles O26: the pair under the cursor is a ramp pair or a hold pair. -/
theorem hullEvalTakesOnePair : Obligations.HullEvalTakesOnePair := by
  rintro sl s p a b rfl first second room
  have pair : PairAt sl s a b := ⟨first, second, room⟩
  constructor
  · intro ramp
    exact ⟨_, hullEval_of_ramp pair ramp, rampPair_volumeDelta .., rampPair_hullCounter ..,
      rampPair_cursor pair, rampPair_nextPair_changesOnly sl a b s⟩
  · rintro rfl
    refine ⟨_, hullEval_of_hold pair, holdPair_volume .., ?_, holdPair_cursor pair,
      holdPair_nextPair_changesOnly sl a s⟩
    rw [holdPair_volumeDelta, (setReg_changesOnly s sl _ _).reg_eq (by decide)]

/-! ## Parked for good -/

/-- R101: a zero delta leaves the level where it is. -/
theorem volumeRamp_of_no_delta {sl : Fin 5} {s : State} (no_delta : s.reg sl .volumeDelta = 0) :
    SameRegisters s (volumeRamp sl s) := by
  have same_level : s.reg sl .volume + s.reg sl .volumeDelta = s.reg sl .volume := by
    rw [no_delta]
    exact BitVec.add_zero _
  intro sl' r
  rw [volumeRamp, same_level, State.reg_setReg]
  split
  next here => rw [here.1, here.2]
  next => rfl

/-- Settles O27: the hold pair, then the ramp pair `(0, 0)`, which leaves no delta and no counter. -/
theorem terminalHoldParks : Obligations.TerminalHoldParks := by
  rintro sl s p level rfl first second third fourth room
  obtain ⟨t, held, level_set, -, cursor, kept⟩ :=
    (hullEvalTakesOnePair sl s _ level 0xFFFF rfl first second (by omega)).2 rfl
  have curve : t.reg sl .hullCurve = s.reg sl .hullCurve := kept.reg_eq (by decide)
  have index : (s.reg sl .hullCurve).toNat + (s.reg sl .hullOffset).toNat / 2 + 2 =
      (t.reg sl .hullCurve).toNat + (t.reg sl .hullOffset).toNat / 2 := by
    rw [curve, cursor]; omega
  rw [← kept.cfg_eq] at third fourth
  obtain ⟨u, ended, no_delta, parked, cursor', kept'⟩ :=
    (hullEvalTakesOnePair sl t _ 0 0 index third fourth (by omega)).1 (by decide)
  refine ⟨u, held.trans ended, (kept'.reg_eq (by decide)).trans level_set, no_delta, parked, by omega,
    (kept.mono (by decide)).trans (kept'.mono (by decide)), volumeRamp_of_no_delta no_delta,
    hullStep_of_parked parked⟩

/-! ## The whole walk -/

/-- From `s` to `t` the walk of slot `sl` has taken `k` pairs, all of them in the ROM. -/
structure PairsTaken (sl : Fin 5) (k : Nat) (s t : State) : Prop where
  inRom : hullIndex sl s + 2 * k ≤ s.cfg.hull.length
  cursor : (t.reg sl .hullOffset).toNat = (s.reg sl .hullOffset).toNat + 4 * k
  changes : ChangesOnly sl [.volume, .volumeDelta, .hullOffset, .hullCounter] s t

section
variable {sl : Fin 5} {s : State} {a b : Word}

theorem PairAt.inRom (pair : PairAt sl s a b) : hullIndex sl s + 2 ≤ s.cfg.hull.length := by
  obtain ⟨in_rom, -⟩ := List.getElem?_eq_some_iff.mp pair.second
  exact in_rom

theorem PairsTaken.index {k : Nat} {t : State} (taken : PairsTaken sl k s t) :
    hullIndex sl t = hullIndex sl s + 2 * k := by
  rw [hullIndex, hullIndex, taken.cursor, taken.changes.reg_eq (by decide)]
  omega

theorem PairsTaken.trans {j k : Nat} {t u : State} (h : PairsTaken sl j s t)
    (h' : PairsTaken sl k t u) : PairsTaken sl (j + k) s u where
  inRom := by
    have in_rom := h'.inRom
    rw [h.index, h.changes.cfg_eq] at in_rom
    omega
  cursor := by
    rw [h'.cursor, h.cursor]
    omega
  changes := h.changes.trans h'.changes

theorem holdPair_pairsTaken (pair : PairAt sl s a b) :
    PairsTaken sl 1 s (holdPair sl a (nextPair sl s)) :=
  ⟨pair.inRom, holdPair_cursor pair, (holdPair_nextPair_changesOnly sl a s).mono (by decide)⟩

theorem rampPair_pairsTaken (pair : PairAt sl s a b) :
    PairsTaken sl 1 s (rampPair sl a b (nextPair sl s)) :=
  ⟨pair.inRom, rampPair_cursor pair, (rampPair_nextPair_changesOnly sl a b s).mono (by decide)⟩

end

/-- R105: the walk raises `HullBounds`, or ends at a ramp pair within its bound. -/
theorem hullLoop_outcome (sl : Fin 5) (fuel : Nat) (s : State) :
    hullLoop sl fuel s = .fault .hullBounds ∨
      ∃ t k, hullLoop sl fuel s = .next t ∧ 1 ≤ k ∧ k ≤ fuel ∧ PairsTaken sl k s t ∧
        t.reg sl .hullCounter ≠ 0xFFFF := by
  induction fuel generalizing s with
  | zero => exact .inl rfl
  | succ n ih =>
    obtain ⟨a, b, pair⟩ | bounds := pairAt_or_bounds sl s
    · rw [hullLoop_of_pair pair]
      by_cases hold : b = 0xFFFF
      · rw [if_pos hold]
        refine (ih _).imp_right ?_
        rintro ⟨t, k, ended, -, within, taken, counter⟩
        exact ⟨t, 1 + k, ended, by omega, by omega, (holdPair_pairsTaken pair).trans taken, counter⟩
      · rw [if_neg hold]
        exact .inr ⟨_, 1, rfl, le_rfl, by omega, rampPair_pairsTaken pair, by
          rwa [rampPair_hullCounter]⟩
    · exact .inl (bounds n)

/-- Settles O28: the outcome of the walk at the bound of `hullEval`, and the two ways to have no first pair. -/
theorem hullEvalEndsOrFaults : Obligations.HullEvalEndsOrFaults := by
  refine fun sl s => ⟨(hullLoop_outcome sl 16384 s).imp_right ?_, fun no_pair => ?_⟩
  · rintro ⟨t, k, ended, some_pair, within, taken, counter⟩
    have in_rom := taken.inRom
    exact ⟨t, k, ended, some_pair, within, by omega, taken.cursor, counter, taken.changes⟩
  · obtain ⟨a, b, pair⟩ | bounds := pairAt_or_bounds sl s
    · have in_rom : hullIndex sl s + 2 ≤ s.cfg.hull.length := pair.inRom
      have room := pair.room
      rw [hullIndex] at in_rom
      omega
    · exact bounds 16383

end Sys2Proof.Machine
end

section
/-! The frequency-modulation engine (R111, R112): the cursor's wrap and the effective frequency. -/

namespace Sys2Proof.Machine

open Sys2Proof

/-! ## The cursor -/

/-- R111: a modulo of 0 stands for 65536, the wrap of the word; a remainder by any other fits the word. -/
theorem nextCursor_toNat (cursor incr modulo : Word) :
    (nextCursor cursor incr modulo).toNat =
      (cursor.toNat + incr.toNat) % (if modulo.toNat = 0 then 65536 else modulo.toNat) := by
  by_cases free : modulo = 0
  · rw [nextCursor, if_pos free, BitVec.toNat_ofNat, free]
    rfl
  · have nonzero : modulo.toNat ≠ 0 := fun h => free (BitVec.eq_of_toNat_eq h)
    have fits : (cursor.toNat + incr.toNat) % modulo.toNat < 2 ^ 16 :=
      (Nat.mod_lt _ (Nat.pos_of_ne_zero nonzero)).trans modulo.isLt
    rw [nextCursor, if_neg free, if_neg nonzero, BitVec.toNat_ofNat, Nat.mod_eq_of_lt fits]

/-- Settles O29: the advance is one write, of the wrapped sum. -/
theorem cursorWrapsByModulo : Obligations.CursorWrapsByModulo := fun sl s =>
  ⟨by rw [cursorAdvance, State.reg_setReg_self, nextCursor_toNat], setReg_changesOnly s sl _ _⟩

/-! ## The effective frequency -/

theorem u16_toNat (i : Int) : ((u16 i).toNat : Int) = i % 65536 := by
  rw [u16, BitVec.toNat_ofInt]
  exact Int.toNat_of_nonneg (Int.emod_nonneg i (by decide))

theorem modulated_toNat (base : Word) (m : Int) (mult : Word) :
    ((modulated base m mult).toNat : Int) =
      (base.toNat + Int.tdiv (m * mult.toNat) 256) % 65536 :=
  u16_toNat _

section
variable {sl : Fin 5} {s : State}

theorem effectiveFreq_of_entry {m : BitVec 8} (entry : s.cfg.fm[fmIndex sl s]? = some m) :
    effectiveFreq sl s = .next (s.setReg sl .freq
      (modulated (s.reg sl .baseFreq) m.toInt (s.reg sl .freqmodMult))) := by
  obtain ⟨b, read, runs⟩ | ⟨past, -⟩ := effectiveFreq_cases sl s
  · obtain rfl : m = b := Option.some.inj (entry.symm.trans read)
    exact runs
  · rw [List.getElem?_eq_none past] at entry
    cases entry

theorem effectiveFreq_of_past (past : s.cfg.fm.length ≤ fmIndex sl s) :
    effectiveFreq sl s = .fault .fmBounds := by
  obtain ⟨b, read, -⟩ | ⟨-, faults⟩ := effectiveFreq_cases sl s
  · rw [List.getElem?_eq_none past] at read
    cases read
  · exact faults

end

/-- Settles O30: `fmIndex` lies inside the ROM, where `FREQ` is the one register written, or past it. -/
theorem effectiveFrequencyFollowsTable : Obligations.EffectiveFrequencyFollowsTable := by
  rintro sl s idx rfl
  refine ⟨fun m entry => ⟨_, effectiveFreq_of_entry entry, ?_, setReg_changesOnly s sl _ _⟩,
    effectiveFreq_of_past⟩
  rw [State.reg_setReg_self, modulated_toNat]

end Sys2Proof.Machine
end

section
/-! The step of the noise register (R121, R125): its bits, when it is invertible, and its fixed point. -/

namespace Sys2Proof.Machine

open Sys2Proof

/-! ## One edge -/

/-- Bit 16 of the mask reaches bit 15 of the register, since the mask is applied before the shift (R120). -/
theorem lfsrNext_getLsbD (fb : Mask) (x : Word) {i : Nat} (hi : i < 16) :
    (lfsrNext fb x).getLsbD i =
      (x.getLsbD (i + 1) ^^ (x.getLsbD 0 && fb.getLsbD (i + 1))) := by
  have widened : (x.zeroExtend 17).getLsbD (i + 1) = x.getLsbD (i + 1) := by
    rw [BitVec.getLsbD_setWidth, decide_eq_true (by omega), Bool.true_and]
  rw [lfsrNext, BitVec.getLsbD_extractLsb', decide_eq_true hi, Bool.true_and, Nat.add_comm 1 i]
  cases x.getLsbD 0 with
  | false => rw [Bool.false_and, Bool.xor_false]; exact widened
  | true => rw [Bool.true_and]; exact (BitVec.getLsbD_xor ..).trans (by rw [widened])

/-- The second form of R121. -/
theorem lfsrNext_eq_shift_xor (fb : Mask) (x : Word) :
    lfsrNext fb x = (x >>> 1) ^^^ (if x.getLsbD 0 then fb.extractLsb' 1 16 else 0) := by
  refine BitVec.eq_of_getLsbD_eq fun i hi => ?_
  rw [lfsrNext_getLsbD fb x hi, BitVec.getLsbD_xor, BitVec.getLsbD_ushiftRight, Nat.add_comm 1 i]
  cases x.getLsbD 0 with
  | false => simp
  | true => simp [hi, Nat.add_comm 1 i]

theorem lfsrEdge_rng (fb : Mask) (c : Fin 4) (s : State) :
    (lfsrEdge fb c s).rng = lfsrNext fb s.rng := rfl

theorem lfsrEdge_phase (fb : Mask) (c : Fin 4) (s : State) :
    (lfsrEdge fb c s).phase = if s.rng.getLsbD 0 then (s.togglePhase c).phase else s.phase := by
  unfold lfsrEdge
  split <;> rfl

/-- Settles O32: the register takes the second form of R121, and the phase is toggled or not. -/
theorem lfsrEdgeShiftsAndToggles : Obligations.LfsrEdgeShiftsAndToggles := by
  refine fun fb c s => ⟨lfsrNext_eq_shift_xor fb s.rng, fun c' => ?_, oscEdge_eq (some fb) c s⟩
  rw [lfsrEdge_phase]
  by_cases low : s.rng.getLsbD 0 = true
  · simp only [low, and_true, if_true]
    exact State.phase_togglePhase s c c'
  · rw [if_neg low, if_neg fun both => low both.2]

/-! ## Invertibility -/

/-- R125 (a): the top bit is the old low bit, where the mask lets it through. -/
theorem lfsrNext_top (fb : Mask) (x : Word) :
    (lfsrNext fb x).getLsbD 15 = (x.getLsbD 0 && fb.getLsbD 16) := by
  rw [lfsrNext_getLsbD fb x (by decide), BitVec.getLsbD_of_ge x (15 + 1) (by decide), Bool.false_xor]

/-- R125 (b): the old low bit is read off the new top bit, and with it the old upper bits. -/
theorem lfsrNext_injective {fb : Mask} (top : fb.getLsbD 16 = true) :
    Function.Injective (lfsrNext fb) := by
  intro x y same
  have low : x.getLsbD 0 = y.getLsbD 0 := by
    have tops := lfsrNext_top fb x
    rw [same, lfsrNext_top, top, Bool.and_true, Bool.and_true] at tops
    exact tops.symm
  refine BitVec.eq_of_getLsbD_eq fun i hi => ?_
  cases i with
  | zero => exact low
  | succ j =>
    have bits := lfsrNext_getLsbD fb x (i := j) (by omega)
    rw [same, lfsrNext_getLsbD fb y (by omega), low] at bits
    exact (Bool.xor_left_inj.mp bits).symm

/-- R125 (c): without bit 16 of the mask, no step sets the top bit. -/
theorem top_of_lfsrNext_surjective {fb : Mask} (onto : Function.Surjective (lfsrNext fb)) :
    fb.getLsbD 16 = true := by
  obtain ⟨x, hit⟩ := onto 0x8000
  have tops := lfsrNext_top fb x
  rw [hit] at tops
  exact (Bool.and_eq_true_iff.mp tops.symm).2

theorem lfsrNext_zero (fb : Mask) : lfsrNext fb 0 = 0 := by
  rw [lfsrNext_eq_shift_xor, if_neg (by decide)]
  rfl

theorem lfsrNext_ne_zero {fb : Mask} (top : fb.getLsbD 16 = true) {x : Word} (alive : x ≠ 0) :
    lfsrNext fb x ≠ 0 := fun locked =>
  alive (lfsrNext_injective top (locked.trans (lfsrNext_zero fb).symm))

/-- Settles O33: an injection of the 16-bit words into themselves is a bijection. -/
theorem lfsrInvertibleIffTopTap : Obligations.LfsrInvertibleIffTopTap := fun fb =>
  ⟨⟨fun invertible => top_of_lfsrNext_surjective invertible.surjective,
      fun top => (lfsrNext_injective top).bijective_of_finite⟩,
    fun top _ alive => lfsrNext_ne_zero top alive, lfsrNext_zero fb⟩

end Sys2Proof.Machine
end

section
/-! The noise channel in a frame (R122): what leaves `RNG` and `PHASE[3]` alone. -/

namespace Sys2Proof.Machine

open Sys2Proof

/-! ## What an oscillator keeps -/

section
variable {P : State → Prop} {c : Fin 4} {fb : Option Mask} (edge : ∀ u, P u → P (oscEdge fb c u))
include edge

/-- What every edge of a frame keeps, the edge loop of R132 keeps. -/
theorem oscEdges_keeps (period fuel : Nat) (t d : Int) {s : State} (hs : P s) :
    P (oscEdges fb c period fuel t d s).2.2 := by
  induction fuel generalizing t d s with
  | zero => exact hs
  | succ k ih =>
    rw [oscEdges]
    split
    · exact ih _ _ (edge s hs)
    · exact hs

/-- After its edges an oscillator writes its countdown and nothing else. -/
theorem osc_keeps (timer : ∀ u t, P u → P (u.setTimer c t)) {f : Nat} {vt : Word}
    {x y : State × Int} (h : osc c f vt fb x = .next y) (hx : P x.1) : P y.1 := by
  obtain ⟨-, ho⟩ | ⟨-, ho⟩ := osc_cases c f vt fb x
  · rw [ho] at h; cases h
  · rw [ho] at h; cases h
    exact timer _ _ (oscEdges_keeps edge _ _ _ _ hx)

end

/-! ## A frame without the noise channel -/

/-- The configuration, the channel registers, `RNG` and `PHASE[3]` are unchanged. -/
structure KeepsNoise (s t : State) : Prop where
  inst : t.inst = s.inst
  ch : t.ch = s.ch
  rng : t.rng = s.rng
  phase : t.phase[3] = s.phase[3]

theorem KeepsNoise.refl (s : State) : KeepsNoise s s := ⟨rfl, rfl, rfl, rfl⟩

theorem KeepsNoise.trans {s t u : State} (h : KeepsNoise s t) (h' : KeepsNoise t u) :
    KeepsNoise s u :=
  ⟨h'.inst.trans h.inst, h'.ch.trans h.ch, h'.rng.trans h.rng, h'.phase.trans h.phase⟩

/-- R130: whether a channel sounds is a matter of its registers. -/
theorem KeepsNoise.sounding_eq {s t : State} (h : KeepsNoise s t) (c : Fin 4) :
    sounding t c = sounding s c := by
  simp only [sounding, State.reg_congr h.ch]

theorem setTimer_keepsNoise (s : State) (c : Fin 4) (t : Int) : KeepsNoise s (s.setTimer c t) :=
  ⟨rfl, rfl, rfl, rfl⟩

theorem togglePhase_keepsNoise {c : Fin 4} (hc : c ≠ 3) (s : State) :
    KeepsNoise s (s.togglePhase c) :=
  ⟨rfl, rfl, rfl, (State.phase_togglePhase s c 3).trans (if_neg hc.symm)⟩

theorem copyOsc_keepsNoise {i : Fin 4} (hi : i ≠ 3) (j : Fin 4) (s : State) :
    KeepsNoise s (s.copyOsc i j) :=
  ⟨rfl, rfl, rfl, Vector.getElem_set_ne i.isLt (by decide) fun same => hi (Fin.ext same)⟩

/-- A melodic oscillator. -/
theorem osc_keepsNoise {c : Fin 4} (hc : c ≠ 3) {f : Nat} {vt : Word} {x y : State × Int}
    (h : osc c f vt none x = .next y) : KeepsNoise x.1 y.1 :=
  osc_keeps (P := KeepsNoise x.1) (fb := none) (fun u hu => hu.trans (togglePhase_keepsNoise hc u))
    (fun u t hu => hu.trans (setTimer_keepsNoise u c t)) h (.refl x.1)

theorem syncPair_keepsNoise {i : Fin 4} (hi : i ≠ 3) (j : Fin 4) (s : State) :
    KeepsNoise s (syncPair i j s) := by
  unfold syncPair
  split
  · exact copyOsc_keepsNoise hi j s
  · exact .refl s

/-- R135: channel 3 is in no pair. -/
theorem phaseSync_keepsNoise (s : State) : KeepsNoise s (phaseSync s) :=
  ((syncPair_keepsNoise (by decide) 0 s).trans (syncPair_keepsNoise (by decide) 0 _)).trans
    (syncPair_keepsNoise (by decide) 1 _)

theorem tgChannel_of_silent {c : Fin 4} {x : State × Int} (silent : sounding x.1 c = false) :
    tgChannel c x = .next (drain c x.1, x.2) :=
  if_neg (Bool.eq_false_iff.mp silent)

theorem tgChannel_of_noise {x : State × Int} (sounds : sounding x.1 3 = true) :
    tgChannel 3 x = noiseOsc x :=
  if_pos sounds

theorem tgChannel_of_melodic {c : Fin 4} {x : State × Int} (sounds : sounding x.1 c = true)
    (hc : c ≠ 3) : tgChannel c x = melodicOsc c x :=
  (if_pos sounds).trans (if_neg hc)

theorem tgChannel_keepsNoise {c : Fin 4} {x y : State × Int} (hc : c ≠ 3 ∨ sounding x.1 c = false)
    (h : tgChannel c x = .next y) : KeepsNoise x.1 y.1 := by
  cases sounds : sounding x.1 c with
  | false =>
    rw [tgChannel_of_silent sounds] at h
    cases h
    exact setTimer_keepsNoise x.1 c _
  | true =>
    have melodic : c ≠ 3 := hc.resolve_right (by rw [sounds]; decide)
    rw [tgChannel_of_melodic sounds melodic] at h
    obtain ⟨vt, -, h⟩ := andThen_eq_next.mp h
    exact osc_keepsNoise melodic h

/-- All that the `TG` mix can do to the noise channel it does in the turn of channel 3 (R138). -/
theorem tgMix_noise_turn {s : State} {x : State × Int} (h : tgMix s = .next x) :
    ∃ a : State × Int, KeepsNoise s a.1 ∧ tgChannel 3 a = .next x := by
  obtain ⟨a, b, c, ha, hb, hc, hd⟩ := tgMix_next h
  have synced : KeepsNoise s (phaseSync s) := phaseSync_keepsNoise s
  generalize phaseSync s = s' at ha synced
  have first := tgChannel_keepsNoise (.inl (by decide)) ha
  have second := tgChannel_keepsNoise (.inl (by decide)) hb
  have third := tgChannel_keepsNoise (.inl (by decide)) hc
  exact ⟨c, ((synced.trans first).trans second).trans third, hd⟩

/-- R140: whichever channel wins, the speaker runs oscillator 0. -/
theorem spkMix_keepsNoise {s : State} {x : State × Int} (h : spkMix s = .next x) :
    KeepsNoise s x.1 := by
  unfold spkMix at h
  split at h
  · cases h; exact .refl s
  · obtain ⟨vt, -, h⟩ := andThen_eq_next.mp h
    exact osc_keepsNoise (by decide) h

theorem mix_of_spk {s : State} (hp : s.profile = .spk) : mix s = spkMix s := by
  rw [mix, hp]

theorem mix_of_tg {s : State} (hp : s.profile = .tg) : mix s = tgMix s := by
  rw [mix, hp]

theorem mix_keepsNoise {s : State} {x : State × Int}
    (unrendered : s.profile = .spk ∨ sounding s 3 = false) (h : mix s = .next x) :
    KeepsNoise s x.1 := by
  cases hp : s.profile with
  | spk => exact spkMix_keepsNoise (mix_of_spk hp ▸ h)
  | tg =>
    have silent : sounding s 3 = false := unrendered.resolve_left (by rw [hp]; decide)
    obtain ⟨a, before, turn⟩ := tgMix_noise_turn (mix_of_tg hp ▸ h)
    exact before.trans (tgChannel_keepsNoise (.inr ((before.sounding_eq 3).trans silent)) turn)

theorem finishFrame_keepsNoise (x : State × Int) : KeepsNoise x.1 (finishFrame x) :=
  ⟨rfl, rfl, rfl, rfl⟩

/-- Settles O34: of all that a frame runs, only the turn of a sounding channel 3 makes noise edges. -/
theorem silentNoiseKeepsRegister : Obligations.SilentNoiseKeepsRegister := by
  intro s t unrendered h
  obtain ⟨x, mixed, rfl⟩ := frameStep_next h
  have kept := (mix_keepsNoise unrendered mixed).trans (finishFrame_keepsNoise x)
  exact ⟨kept.rng, kept.phase⟩

end Sys2Proof.Machine
end

section
/-! What a tick leaves alone, whatever the host does in it (R164, R192): everything but the channel
registers, the music timer and the host's side. -/

namespace Sys2Proof.Machine

open Sys2Proof

/-- What every part of a tick keeps: the generators, the setup, the output, the clock and the port. -/
structure TickFrame (s t : State) : Prop where
  oscillators : SameOscillators s t
  setup : SameSetup s t
  sound : SameSound s t
  port : t.port = s.port

theorem TickFrame.refl (s : State) : TickFrame s s :=
  ⟨⟨rfl, rfl⟩, .refl s, ⟨rfl, rfl, rfl, rfl, rfl⟩, rfl⟩

theorem TickFrame.trans {s t u : State} (h : TickFrame s t) (h' : TickFrame t u) :
    TickFrame s u := by
  obtain ⟨⟨phase, timer⟩, setup, ⟨rng, level, next, out, ticks⟩, port⟩ := h
  obtain ⟨⟨phase', timer'⟩, setup', ⟨rng', level', next', out', ticks'⟩, port'⟩ := h'
  exact ⟨⟨phase'.trans phase, timer'.trans timer⟩, setup.trans setup',
    ⟨rng'.trans rng, level'.trans level, next'.trans next, out'.trans out, ticks'.trans ticks⟩,
    port'.trans port⟩

theorem SameButRegisters.tickFrame {s t : State} (h : SameButRegisters s t) : TickFrame s t := by
  obtain ⟨oscillators, -, setup, sound, port, -⟩ := h
  exact ⟨oscillators, setup, sound, port⟩

theorem ChangesOnly.tickFrame {sl : Fin 5} {rs : List Reg} {s t : State}
    (h : ChangesOnly sl rs s t) : TickFrame s t := by
  obtain ⟨-, kept⟩ := h
  exact kept.tickFrame

theorem setReg_tickFrame (s : State) (sl : Fin 5) (r : Reg) (v : Word) :
    TickFrame s (s.setReg sl r v) :=
  (setReg_changesOnly s sl r v).tickFrame

theorem effectiveFreq_tickFrame {sl : Fin 5} {s t : State} (h : effectiveFreq sl s = .next t) :
    TickFrame s t := by
  obtain ⟨b, -, he⟩ | ⟨-, he⟩ := effectiveFreq_cases sl s
  · rw [he] at h; cases h; exact setReg_tickFrame s sl _ _
  · rw [he] at h; cases h

theorem noteOff_tickFrame (sl : Fin 5) (s : State) : TickFrame s (noteOff sl s) := by
  have counted := setReg_tickFrame s sl .noteLength (s.reg sl .noteLength - 1)
  unfold noteOff
  split
  · exact .refl s
  · dsimp only
    split
    · exact (counted.trans (setReg_tickFrame _ sl _ _)).trans (setReg_tickFrame _ sl _ _)
    · exact counted

theorem hullEval_tickFrame {sl : Fin 5} {s t : State} (h : hullEval sl s = .next t) :
    TickFrame s t := by
  obtain fault | ⟨u, k, ended, -, -, taken, -⟩ := hullLoop_outcome sl 16384 s
  · rw [hullEval, fault] at h; cases h
  · rw [hullEval, ended] at h; cases h; exact taken.changes.tickFrame

theorem hullStep_tickFrame {sl : Fin 5} {s t : State} (h : hullStep sl s = .next t) :
    TickFrame s t := by
  have counted := setReg_tickFrame s sl .hullCounter (s.reg sl .hullCounter - 1)
  unfold hullStep at h
  split at h
  · cases h; exact .refl s
  · dsimp only at h
    split at h
    · exact counted.trans (hullEval_tickFrame h)
    · cases h; exact counted

theorem serve_tickFrame {e : Event} {s t : State} (h : serve e s = .next t) : TickFrame s t := by
  obtain ⟨oscillators, -, -, setup, sound, port, -⟩ := serve_next h
  exact ⟨oscillators, setup, sound, port⟩

theorem durationStep_tickFrame {c : Fin 4} {s t : State} (h : durationStep c s = .next t) :
    TickFrame s t := by
  have counted := setReg_tickFrame s (chanSlot c) .timeLeft (s.reg (chanSlot c) .timeLeft - 1)
  unfold durationStep at h
  dsimp only at h
  split at h
  · exact counted.trans (serve_tickFrame h)
  · cases h; exact counted

theorem ramps_tickFrame (sl : Fin 5) (s : State) :
    TickFrame s (cursorAdvance sl (baseRamp sl (volumeRamp sl s))) :=
  ((setReg_tickFrame s sl _ _).trans (setReg_tickFrame _ sl _ _)).trans (setReg_tickFrame _ sl _ _)

theorem tickChannel_tickFrame {c : Fin 4} {s t : State} (h : tickChannel c s = .next t) :
    TickFrame s t := by
  unfold tickChannel at h
  split at h
  · obtain ⟨u, v, hu, hv, ht⟩ := chTick_next h
    exact (ramps_tickFrame (chanSlot c) s).trans <| (effectiveFreq_tickFrame hu).trans <|
      (noteOff_tickFrame (chanSlot c) u).trans <| (hullStep_tickFrame hv).trans <|
      durationStep_tickFrame ht
  · cases h; exact .refl s

theorem musicTimerStep_tickFrame (s : State) : TickFrame s (musicTimerStep s) := by
  obtain h | h := musicTimerStep_cases s <;> rw [h] <;>
    exact ⟨⟨rfl, rfl⟩, ⟨rfl, rfl, rfl⟩, ⟨rfl, rfl, rfl, rfl, rfl⟩, rfl⟩

theorem idleStep_tickFrame {was : Bool} {s t : State} (h : idleStep was s = .next t) :
    TickFrame s t := by
  unfold idleStep at h
  split at h
  · exact serve_tickFrame h
  · cases h; exact .refl s

/-- A tick is a change within its frame, and then the count of it (R163, R164). -/
theorem tick_tickFrame {s t : State} (h : tick s = .next t) :
    ∃ v, TickFrame s v ∧ t = { v with ticks := v.ticks + 1 } := by
  obtain ⟨u, v, hu, hv, rfl⟩ := tick_next h
  obtain ⟨a, b, c, ha, hb, hc, hd⟩ := tickChannels_next hu
  exact ⟨v, (tickChannel_tickFrame ha).trans <| (tickChannel_tickFrame hb).trans <|
    (tickChannel_tickFrame hc).trans <| (tickChannel_tickFrame hd).trans <|
    (musicTimerStep_tickFrame u).trans <| idleStep_tickFrame hv, rfl⟩

end Sys2Proof.Machine
end

section
/-! The noise register stays alive (R125 (b), R221): the configuration stays, and each edge, under one of
the two masks, takes a nonzero register to a nonzero one. -/

namespace Sys2Proof.Machine

open Sys2Proof

/-- `NoiseInv` reads nothing but the configuration and `RNG`. -/
theorem NoiseInv.congr {s t : State} (hi : t.inst = s.inst) (hr : t.rng = s.rng)
    (h : NoiseInv s) : NoiseInv t := by
  unfold NoiseInv at h ⊢
  rw [State.cfg, hi, hr]
  exact h

theorem KeepsNoise.noiseInv {s t : State} (h : KeepsNoise s t) (hs : NoiseInv s) : NoiseInv t :=
  hs.congr h.inst h.rng

theorem SameSound.noiseInv {s t : State} (sound : SameSound s t) (setup : SameSetup s t)
    (hs : NoiseInv s) : NoiseInv t := by
  obtain ⟨rng, -⟩ := sound
  obtain ⟨inst, -⟩ := setup
  exact hs.congr inst rng

/-! ## The frame -/

/-- R123: the mask of a frame is one of the two. -/
theorem NoiseInv.noiseMask_top {s : State} (h : NoiseInv s) (f : Nat) :
    (noiseMask s.cfg f).getLsbD 16 = true := by
  obtain ⟨white, periodic, -, -⟩ := h
  unfold noiseMask
  split
  · exact white
  · exact periodic

theorem lfsrEdge_noiseInv {fb : Mask} (top : fb.getLsbD 16 = true) (c : Fin 4) (s : State)
    (hs : NoiseInv s) : NoiseInv (lfsrEdge fb c s) := by
  obtain ⟨white, periodic, seed, alive⟩ := hs
  have inst : (lfsrEdge fb c s).inst = s.inst := by rw [← oscEdge, oscEdge_eq]
  rw [NoiseInv, State.cfg, inst, lfsrEdge_rng]
  exact ⟨white, periodic, seed, lfsrNext_ne_zero top alive⟩

theorem noiseOsc_noiseInv {x y : State × Int} (h : noiseOsc x = .next y) (hx : NoiseInv x.1) :
    NoiseInv y.1 := by
  obtain ⟨vt, -, h⟩ := andThen_eq_next.mp h
  have top := hx.noiseMask_top (noiseControl x.1)
  exact osc_keeps (P := NoiseInv) (fb := some _) (fun u hu => lfsrEdge_noiseInv top 3 u hu)
    (fun _ _ hu => hu.congr rfl rfl) h hx

theorem tgChannel_three_noiseInv {x y : State × Int} (h : tgChannel 3 x = .next y)
    (hx : NoiseInv x.1) : NoiseInv y.1 := by
  cases sounds : sounding x.1 3 with
  | false => exact (tgChannel_keepsNoise (.inr sounds) h).noiseInv hx
  | true => exact noiseOsc_noiseInv (tgChannel_of_noise sounds ▸ h) hx

theorem mix_noiseInv {s : State} {x : State × Int} (h : mix s = .next x) (hs : NoiseInv s) :
    NoiseInv x.1 := by
  cases hp : s.profile with
  | spk => exact (spkMix_keepsNoise (mix_of_spk hp ▸ h)).noiseInv hs
  | tg =>
    obtain ⟨a, before, turn⟩ := tgMix_noise_turn (mix_of_tg hp ▸ h)
    exact tgChannel_three_noiseInv turn (before.noiseInv hs)

theorem frames_noiseInv {k : Nat} {s t : State} (h : frames k s = .next t) (hs : NoiseInv s) :
    NoiseInv t := by
  induction k generalizing s with
  | zero => cases h; exact hs
  | succ k ih =>
    obtain ⟨u, hu, h⟩ := andThen_eq_next.mp h
    obtain ⟨x, mixed, rfl⟩ := frameStep_next hu
    exact ih h ((finishFrame_keepsNoise x).noiseInv (mix_noiseInv mixed hs))

/-! ## The tick and `PULL` -/

theorem tick_noiseInv {s t : State} (h : tick s = .next t) (hs : NoiseInv s) : NoiseInv t := by
  obtain ⟨v, kept, rfl⟩ := tick_tickFrame h
  exact (kept.sound.noiseInv kept.setup hs).congr rfl rfl

theorem tickIfDue_noiseInv {s t : State} (h : tickIfDue s = .next t) (hs : NoiseInv s) :
    NoiseInv t := by
  unfold tickIfDue at h
  split at h
  · obtain ⟨u, hu, h⟩ := andThen_eq_next.mp h
    cases h
    exact (tick_noiseInv hu hs).congr rfl rfl
  · cases h; exact hs

theorem pullLoop_noiseInv {fuel left : Nat} {s t : State} (h : pullLoop fuel left s = .next t)
    (hs : NoiseInv s) : NoiseInv t := by
  induction fuel generalizing left s with
  | zero => cases h; exact hs
  | succ k ih =>
    by_cases hl : left = 0
    · rw [hl, pullLoop_none] at h; cases h; exact hs
    · rw [pullLoop_step hl rfl] at h
      obtain ⟨u, hu, h⟩ := andThen_eq_next.mp h
      obtain ⟨v, hv, h⟩ := andThen_eq_next.mp h
      have counted : NoiseInv (countDown (min left (wholeFrames s)) u) :=
        (frames_noiseInv hu hs).congr (countDown_inst _ u) (countDown_rng _ u)
      exact ih h (tickIfDue_noiseInv hv counted)

theorem execPull_noiseInv {n : BitVec 24} {s t : State} (h : execPull n s = .next t)
    (hs : NoiseInv s) : NoiseInv t := by
  unfold execPull at h
  split at h
  · cases h
  · exact pullLoop_noiseInv h hs

/-! ## The step -/

/-- R124: of the other commands only `RESET` writes `RNG`, with the seed. -/
theorem exec_noiseInv {i : Instr} {s t : State} (h : exec i s = .next t) (hs : NoiseInv s) :
    NoiseInv t := by
  cases i with
  | nop | wrch | rdch | clrch | wrtpm | rdtmr =>
    obtain ⟨-, -, -, setup, sound, -⟩ := exec_serviceFrame_of_allowedInService rfl h
    exact sound.noiseInv setup hs
  | reset =>
    obtain ⟨white, periodic, seed, -⟩ := hs
    cases h
    exact (noiseInv_resetOf white periodic seed).congr rfl rfl
  | mode p => cases h; exact hs.congr rfl rfl
  | setvol v => cases h; exact hs.congr rfl rfl
  | pull n => exact execPull_noiseInv h hs

/-- Settles O55: a step is an idle one, a reserved word or a command; only `RESET` and the noise edges of a
`PULL` write the register. -/
theorem stepKeepsNoiseAlive : Obligations.StepKeepsNoiseAlive := by
  intro s t hs h
  obtain rfl | ⟨w, u, hf, ht⟩ := step_next h
  · exact hs
  · have taken : NoiseInv u := by
      rw [fetch_eq hf]
      exact hs.congr rfl rfl
    obtain rfl | ⟨i, -, hi⟩ := ht
    · exact taken
    · exact exec_noiseInv hi taken

end Sys2Proof.Machine
end

section
/-! One oscillator in a frame (R132, R141): what it leaves alone, the bounds of its countdown and of its
high-phase duration, and the frame in closed form. -/

namespace Sys2Proof.Machine

open Sys2Proof

/-! ## The state of one oscillator -/

/-- Both pieces of state of oscillator `c`, its countdown and its phase (R14, R16). -/
def State.oscillator (s : State) (c : Fin 4) : BitVec 32 × Bool := (s.timerCount[c], s.phase[c])

theorem State.oscillator_eq_iff {s t : State} {c d : Fin 4} :
    t.oscillator c = s.oscillator d ↔ t.timerCount[c] = s.timerCount[d] ∧ t.phase[c] = s.phase[d] :=
  Prod.mk_inj

theorem State.timer_of_oscillator_eq {s t : State} {c d : Fin 4} (h : t.oscillator c = s.oscillator d) :
    t.timer c = s.timer d :=
  congrArg (fun x => x.1.toInt) h

theorem State.phase_of_oscillator_eq {s t : State} {c d : Fin 4} (h : t.oscillator c = s.oscillator d) :
    t.phase[c] = s.phase[d] :=
  congrArg Prod.snd h

theorem State.oscillator_setTimer_ne (s : State) {c c' : Fin 4} (h : c' ≠ c) (t : Int) :
    (s.setTimer c t).oscillator c' = s.oscillator c' :=
  State.oscillator_eq_iff.mpr
    ⟨Vector.getElem_set_ne c.isLt c'.isLt fun same => h (Fin.ext same.symm), rfl⟩

theorem oscEdge_oscillator_ne (fb : Option Mask) {c c' : Fin 4} (s : State) (h : c' ≠ c) :
    (oscEdge fb c s).oscillator c' = s.oscillator c' := by
  refine State.oscillator_eq_iff.mpr ⟨?_, oscEdge_phase_ne fb s h⟩
  rw [oscEdge_eq]

/-- A countdown is below 2^31, as a signed 32-bit number (R16). -/
theorem State.timer_lt (s : State) (c : Fin 4) : s.timer c < 2 ^ 31 :=
  BitVec.toInt_lt

/-! ## What changes beside the oscillators: nothing -/

/-- Nothing but the phase bits, the countdowns and `RNG` changes from `s` to `t`: all that a mix writes
(R132, R135, R137). -/
def ChangesGenerators (s t : State) : Prop :=
  ∃ phase timerCount rng, t = { s with phase := phase, timerCount := timerCount, rng := rng }

section
variable {s t : State}

theorem ChangesGenerators.refl (s : State) : ChangesGenerators s s := ⟨_, _, _, rfl⟩

theorem ChangesGenerators.trans {u : State} (h : ChangesGenerators s t) (h' : ChangesGenerators t u) :
    ChangesGenerators s u := by
  obtain ⟨p, k, g, rfl⟩ := h
  obtain ⟨p', k', g', rfl⟩ := h'
  exact ⟨p', k', g', rfl⟩

theorem ChangesGenerators.ch (h : ChangesGenerators s t) : t.ch = s.ch := by
  obtain ⟨_, _, _, rfl⟩ := h; rfl

theorem ChangesGenerators.sameRegisters (h : ChangesGenerators s t) : SameRegisters s t :=
  fun sl r => State.reg_congr h.ch sl r

theorem ChangesGenerators.sameMusicTimer (h : ChangesGenerators s t) : SameMusicTimer s t := by
  obtain ⟨_, _, _, rfl⟩ := h; exact ⟨rfl, rfl, rfl⟩

theorem ChangesGenerators.sameSetup (h : ChangesGenerators s t) : SameSetup s t := by
  obtain ⟨_, _, _, rfl⟩ := h; exact ⟨rfl, rfl, rfl⟩

theorem ChangesGenerators.volTab (h : ChangesGenerators s t) : t.volTab = s.volTab := by
  obtain ⟨_, _, _, rfl⟩ := h; rfl

theorem ChangesGenerators.sameHost (h : ChangesGenerators s t) : SameHost s t := by
  obtain ⟨_, _, _, rfl⟩ := h; exact ⟨rfl, rfl, rfl, rfl⟩

/-- The output and the clock stay as they are. -/
theorem ChangesGenerators.output (h : ChangesGenerators s t) :
    t.level = s.level ∧ t.nextTick = s.nextTick ∧ t.out = s.out ∧ t.ticks = s.ticks := by
  obtain ⟨_, _, _, rfl⟩ := h; exact ⟨rfl, rfl, rfl, rfl⟩

/-- R130: whether a channel sounds is a matter of its registers. -/
theorem ChangesGenerators.sounding_eq (h : ChangesGenerators s t) (c : Fin 4) :
    sounding t c = sounding s c := by
  simp only [sounding, State.reg_congr h.ch]

end

theorem setTimer_changesGenerators (s : State) (c : Fin 4) (t : Int) :
    ChangesGenerators s (s.setTimer c t) := ⟨_, _, _, rfl⟩

theorem drain_changesGenerators (c : Fin 4) (s : State) : ChangesGenerators s (drain c s) :=
  setTimer_changesGenerators s c _

theorem oscEdge_changesGenerators (fb : Option Mask) (c : Fin 4) (s : State) :
    ChangesGenerators s (oscEdge fb c s) :=
  ⟨_, _, _, oscEdge_eq fb c s⟩

theorem osc_changesGenerators {c : Fin 4} {f : Nat} {vt : Word} {fb : Option Mask} {x y : State × Int}
    (h : osc c f vt fb x = .next y) : ChangesGenerators x.1 y.1 :=
  osc_keeps (P := ChangesGenerators x.1) (fun u hu => hu.trans (oscEdge_changesGenerators fb c u))
    (fun u t hu => hu.trans (setTimer_changesGenerators u c t)) h (.refl x.1)

theorem osc_oscillator_ne {c c' : Fin 4} (hc : c' ≠ c) {f : Nat} {vt : Word} {fb : Option Mask}
    {x y : State × Int} (h : osc c f vt fb x = .next y) : y.1.oscillator c' = x.1.oscillator c' :=
  osc_keeps (P := fun u => u.oscillator c' = x.1.oscillator c')
    (fun u hu => (oscEdge_oscillator_ne fb u hc).trans hu)
    (fun u t hu => (u.oscillator_setTimer_ne hc t).trans hu) h rfl

/-- A melodic oscillator makes no noise edge. -/
theorem osc_melodic_rng {c : Fin 4} {f : Nat} {vt : Word} {x y : State × Int}
    (h : osc c f vt none x = .next y) : y.1.rng = x.1.rng :=
  osc_keeps (P := fun u => u.rng = x.1.rng) (fb := none) (fun _ hu => hu) (fun _ _ hu => hu) h rfl

/-! ## The edges of one frame -/

/-- The edge loop of R132 as a frame of oscillator `c` runs it: the countdown, the high-phase duration and
the state after the last edge. -/
def frameEdges (c : Fin 4) (period : Nat) (fb : Option Mask) (s : State) : Int × Int × State :=
  oscEdges fb c period (1 - (s.timer c - 65536)).toNat (s.timer c - 65536)
    (if s.phase[c] then s.timer c else 0) s

/-- A frame takes what lies beyond its end off the high-phase duration, and stores the countdown. -/
theorem oscSpan_eq (c : Fin 4) (period : Nat) (fb : Option Mask) (s : State) :
    oscSpan c period fb s =
      (if (frameEdges c period fb s).2.2.phase[c]
        then (frameEdges c period fb s).2.1 - (frameEdges c period fb s).1
        else (frameEdges c period fb s).2.1,
      (frameEdges c period fb s).2.2.setTimer c (frameEdges c period fb s).1) := rfl

theorem osc_next {c : Fin 4} {f : Nat} {vt : Word} {fb : Option Mask} {x y : State × Int}
    (h : osc c f vt fb x = .next y) :
    oscPeriod x.1 f < 2 ^ 31 ∧
      y = ((oscSpan c (oscPeriod x.1 f) fb x.1).2,
        clamp16 (x.2 + contribution (oscSpan c (oscPeriod x.1 f) fb x.1).1 vt)) := by
  obtain ⟨-, fault⟩ | ⟨fits, done⟩ := osc_cases c f vt fb x
  · rw [fault] at h; cases h
  · rw [done] at h; cases h; exact ⟨fits, rfl⟩

/-! ## The countdown after a frame -/

/-- An edge at a countdown of 0 or below leaves at most the period. -/
theorem oscEdges_le (fb : Option Mask) (c : Fin 4) (period fuel : Nat) (t d : Int) (s : State) :
    (oscEdges fb c period fuel t d s).1 ≤ max t period := by
  induction fuel generalizing t d s with
  | zero => exact le_max_left t period
  | succ k ih =>
    rw [oscEdges]
    split
    · exact (ih _ _ _).trans (by omega)
    · exact le_max_left t period

theorem frameEdges_timer_bounds (c : Fin 4) {period : Nat} (positive : 0 < period) (fb : Option Mask)
    (s : State) :
    0 < (frameEdges c period fb s).1 ∧
      (frameEdges c period fb s).1 ≤ max (s.timer c - 65536) period :=
  ⟨oscEdges_pos fb c positive _ _ _ s (Int.self_le_toNat _), oscEdges_le fb c period _ _ _ s⟩

/-- R141, and corner case 1 of R132 as log entry 13 has it. The countdown that a frame leaves fits its
register. -/
theorem oscSpan_timer_bounds (c : Fin 4) {period : Nat} (positive : 0 < period)
    (fits : period < 2 ^ 31) (fb : Option Mask) (s : State) :
    0 < (oscSpan c period fb s).2.timer c ∧
      (oscSpan c period fb s).2.timer c ≤ max (s.timer c - 65536) period := by
  have bounds := frameEdges_timer_bounds c positive fb s
  have below := s.timer_lt c
  rw [oscSpan_eq, State.timer_setTimer_self _ c (by omega) (by omega)]
  exact bounds

theorem osc_timer_bounds {c : Fin 4} {f : Nat} {vt : Word} {fb : Option Mask} {x y : State × Int}
    (h : osc c f vt fb x = .next y) :
    0 < y.1.timer c ∧ y.1.timer c ≤ max (x.1.timer c - 65536) (oscPeriod x.1 f) := by
  obtain ⟨fits, rfl⟩ := osc_next h
  exact oscSpan_timer_bounds c (oscPeriod_pos x.1 f) fits fb x.1

/-! ## The high-phase duration of a frame -/

/-- What the edge loop keeps of a countdown `t` to the next edge, from the end of the frame, and of a
high-phase duration `d` up to that edge, where the phase is now `high`: the duration lies within the time
up to the edge, and its part within the frame is neither below 0 nor above the frame. -/
structure PendingHigh (high : Bool) (t d : Int) : Prop where
  nonneg : 0 ≤ d
  elapsed : d ≤ t + 65536
  of_high : high = true → t ≤ d
  of_low : high = false → d ≤ 65536

/-- The start of a frame: the stretch up to the first edge. -/
theorem pendingHigh_start (high : Bool) {timer : Int} (nonneg : 0 ≤ timer) :
    PendingHigh high (timer - 65536) (if high then timer else 0) := by
  cases high with
  | false => exact ⟨le_refl 0, by simpa using nonneg, nofun, fun _ => by simp⟩
  | true => exact ⟨nonneg, by simp, fun _ => by simp, nofun⟩

/-- An edge in the frame: the period after it counts where the phase is then high. -/
theorem PendingHigh.edge {high : Bool} {t d : Int} (h : PendingHigh high t d) (due : t ≤ 0)
    (high' : Bool) (period : Nat) :
    PendingHigh high' (t + period) (if high' then d + period else d) := by
  obtain ⟨nonneg, elapsed, -, -⟩ := h
  cases high' with
  | false => exact ⟨nonneg, by simp only [Bool.false_eq_true, if_false]; omega, nofun,
      fun _ => by simp only [Bool.false_eq_true, if_false]; omega⟩
  | true => exact ⟨by simp only [if_true]; omega, by simp only [if_true]; omega,
      fun _ => by simp only [if_true]; omega, nofun⟩

theorem oscEdges_pendingHigh (fb : Option Mask) (c : Fin 4) (period fuel : Nat) (t d : Int) (s : State)
    (h : PendingHigh s.phase[c] t d) :
    PendingHigh (oscEdges fb c period fuel t d s).2.2.phase[c] (oscEdges fb c period fuel t d s).1
      (oscEdges fb c period fuel t d s).2.1 := by
  induction fuel generalizing t d s with
  | zero => exact h
  | succ k ih =>
    by_cases due : t ≤ 0
    · rw [oscEdges, if_pos due]
      exact ih _ _ _ (h.edge due _ period)
    · rw [oscEdges, if_neg due]
      exact h

/-- Corner case 1 of R132: the high-phase duration lies within the frame. -/
theorem oscSpan_high_bounds (c : Fin 4) {period : Nat} (positive : 0 < period) (fb : Option Mask)
    {s : State} (nonneg : 0 ≤ s.timer c) :
    0 ≤ (oscSpan c period fb s).1 ∧ (oscSpan c period fb s).1 ≤ 65536 := by
  obtain ⟨after, -⟩ := frameEdges_timer_bounds c positive fb s
  obtain ⟨nonneg, elapsed, of_high, of_low⟩ : PendingHigh (frameEdges c period fb s).2.2.phase[c]
      (frameEdges c period fb s).1 (frameEdges c period fb s).2.1 :=
    oscEdges_pendingHigh fb c period _ _ _ s (pendingHigh_start s.phase[c] nonneg)
  rw [oscSpan_eq]
  dsimp only
  split
  next high =>
    have := of_high high
    omega
  next low => exact ⟨nonneg, of_low (Bool.eq_false_iff.mpr low)⟩

/-- Settles O35: the countdown comes out of the edge loop between 0 and its bound, the duration keeps to
`PendingHigh`, and nothing but the oscillator itself and `RNG` is written. -/
theorem oscillatorStaysInFrame : Obligations.OscillatorStaysInFrame := by
  intro c f vt fb s t acc a nonneg h
  obtain ⟨positive, bounded⟩ := osc_timer_bounds h
  obtain ⟨span_nonneg, span_le⟩ := oscSpan_high_bounds c (oscPeriod_pos s f) fb nonneg
  have clamped : -32768 ≤ a ∧ a ≤ 32767 := by
    obtain ⟨-, done⟩ := osc_next h
    obtain ⟨-, rfl⟩ := Prod.mk.inj done
    exact clamp16_bounds _
  have kept : ChangesGenerators s t := osc_changesGenerators h
  have others (c' : Fin 4) (hc : c' ≠ c) : t.timer c' = s.timer c' ∧ t.phase[c'] = s.phase[c'] :=
    have same : t.oscillator c' = s.oscillator c' := osc_oscillator_ne hc h
    ⟨State.timer_of_oscillator_eq same, State.phase_of_oscillator_eq same⟩
  have melodic (plain : fb = none) : t.rng = s.rng := by
    subst plain
    exact osc_melodic_rng h
  exact ⟨positive, bounded, span_nonneg, span_le, clamped.1, clamped.2, others, melodic,
    kept.sameRegisters, kept.sameMusicTimer, kept.sameSetup, kept.sameHost, kept.output⟩

/-! ## The frame in closed form -/

theorem oscPeriod_eq (s : State) (f : Nat) :
    oscPeriod s f =
      if f = 0 then updateStep s.cfg s.profile else updateStep s.cfg s.profile * f := by
  obtain ⟨positive, -⟩ := updateStep_bounds s.inst s.profile
  simp only [oscPeriod, Nat.mul_eq_zero, positive.ne', false_or]

theorem osc_of_period {c : Fin 4} {f : Nat} {vt : Word} {fb : Option Mask} {s : State} {acc : Int}
    {period : Nat} (period_eq : oscPeriod s f = period) (fits : period < 2 ^ 31) :
    osc c f vt fb (s, acc) = .next ((oscSpan c period fb s).2,
      clamp16 (acc + contribution (oscSpan c period fb s).1 vt)) := by
  subst period_eq
  exact if_neg (Nat.not_le.mpr fits)

/-- A frame from countdown `timer` that leaves `rest` has `k` edges of the given period: none while the
countdown outlasts it, else as many as take the countdown into `1 .. period` (R132). -/
structure FrameHasEdges (timer : Int) (period k : Nat) (rest : Int) : Prop where
  rest_eq : rest = timer - 65536 + k * period
  range : (65536 < timer ∧ k = 0) ∨ (timer ≤ 65536 ∧ 0 < rest ∧ rest ≤ period)

section
variable {timer rest : Int} {period k : Nat}

theorem FrameHasEdges.rest_pos (h : FrameHasEdges timer period k rest) : 0 < rest := by
  obtain ⟨rest_eq, ⟨outlasts, rfl⟩ | ⟨-, positive, -⟩⟩ := h
  · omega
  · exact positive

/-- Each of the edges finds the countdown at 0 or below. -/
theorem FrameHasEdges.due (h : FrameHasEdges timer period k rest) {j : Nat} (earlier : j < k) :
    timer - 65536 + j * period ≤ 0 := by
  obtain ⟨rest_eq, ⟨-, rfl⟩ | ⟨-, -, le_period⟩⟩ := h
  · omega
  · have later : ((j : Int) + 1) * period ≤ k * period :=
      mul_le_mul_of_nonneg_right (by exact_mod_cast earlier) (by positivity)
    rw [add_one_mul] at later
    omega

/-- The bound of the edge loop leaves room for the edges. -/
theorem FrameHasEdges.le_fuel (h : FrameHasEdges timer period k rest) (positive : 0 < period) :
    k ≤ (1 - (timer - 65536)).toNat := by
  cases k with
  | zero => exact Nat.zero_le _
  | succ j =>
    have last := h.due (Nat.lt_succ_self j)
    have stretched : (j : Int) ≤ j * period :=
      le_mul_of_one_le_right (by positivity) (by exact_mod_cast positive)
    omega

end

/-- One edge takes a countdown within the frame beyond its end. -/
theorem frameHasEdges_one {timer : Int} {period : Nat} (within : timer ≤ 65536)
    (beyond : 65536 < timer + period) :
    FrameHasEdges timer period 1 (timer - 65536 + period) :=
  ⟨by simp, .inr ⟨within, by omega, by omega⟩⟩

/-- A countdown that outlasts the frame has no edge in it. -/
theorem frameHasEdges_zero {timer : Int} (period : Nat) (outlasts : 65536 < timer) :
    FrameHasEdges timer period 0 (timer - 65536) :=
  ⟨by simp, .inl ⟨outlasts, rfl⟩⟩

/-- The high-phase duration of a frame with `k` edges that leaves `rest`: the pending stretch and the period
after each edge, where the phase is then high, less what lies beyond the frame. -/
def highDuration (fb : Option Mask) (c : Fin 4) (period k : Nat) (rest : Int) (s : State) : Int :=
  (if s.phase[c] then s.timer c else 0) + highPeriods (oscEdge fb c) c period k s -
    (if ((oscEdge fb c)^[k] s).phase[c] then rest else 0)

section
variable {c : Fin 4} {f : Nat} {vt : Word} {fb : Option Mask} {s : State} {acc : Int} {period : Nat}

theorem oscSpan_of_edges {k : Nat} {rest : Int} (positive : 0 < period)
    (edges : FrameHasEdges (s.timer c) period k rest) :
    oscSpan c period fb s =
      (highDuration fb c period k rest s, ((oscEdge fb c)^[k] s).setTimer c rest) := by
  have run : frameEdges c period fb s =
      (rest, (if s.phase[c] then s.timer c else 0) + highPeriods (oscEdge fb c) c period k s,
        (oscEdge fb c)^[k] s) := by
    rw [frameEdges, oscEdges_iterate fb c period _ _ s (edges.le_fuel positive)
      (fun _ earlier => edges.due earlier) (edges.rest_eq ▸ edges.rest_pos), edges.rest_eq]
  rw [oscSpan_eq, run, highDuration]
  dsimp only
  split
  · rfl
  · rw [sub_zero]

/-- The exact frame (R132), whatever the number of edges in it. -/
theorem osc_of_edges {k : Nat} {rest : Int} (period_eq : oscPeriod s f = period)
    (fits : period < 2 ^ 31) (edges : FrameHasEdges (s.timer c) period k rest) :
    osc c f vt fb (s, acc) = .next (((oscEdge fb c)^[k] s).setTimer c rest,
      clamp16 (acc + contribution (highDuration fb c period k rest s) vt)) := by
  rw [osc_of_period period_eq fits, oscSpan_of_edges (period_eq ▸ oscPeriod_pos s f) edges]

theorem highDuration_zero (rest : Int) :
    highDuration fb c period 0 rest s = if s.phase[c] then s.timer c - rest else 0 := by
  change (if s.phase[c] then s.timer c else 0) + 0 - (if s.phase[c] then rest else 0) = _
  rw [add_zero, ite_sub_ite, sub_zero]

theorem highDuration_one :
    highDuration fb c period 1 (s.timer c - 65536 + period) s =
      (if s.phase[c] then s.timer c else 0) +
        (if (oscEdge fb c s).phase[c] then 65536 - s.timer c else 0) := by
  simp only [highDuration, highPeriods, Function.iterate_one]
  split <;> split <;> omega

/-- A plain toggle: the phase is high either up to the edge or from it on. -/
theorem highDuration_one_melodic :
    highDuration none c period 1 (s.timer c - 65536 + period) s =
      if s.phase[c] then s.timer c else 65536 - s.timer c := by
  have toggled : (oscEdge none c s).phase[c] = !s.phase[c] :=
    (State.phase_togglePhase s c c).trans (if_pos rfl)
  rw [highDuration_one, toggled]
  cases s.phase[c] <;> simp

end

/-- Corner case 4 of R132: a phase that is high, or low, for the whole frame. -/
theorem contribution_of_whole_frame (high : Bool) (vt : Word) :
    contribution (if high then 65536 else 0) vt =
      if high then (vt.toNat : Int) / 2 else -(((vt.toNat : Int) + 1) / 2) := by
  have half_eq : (half : Int) = 32768 := rfl
  cases high with
  | false => simp only [contribution, Bool.false_eq_true, if_false, half_eq]; omega
  | true => simp only [contribution, if_true, half_eq]; omega

/-- Settles O36: the edge loop in closed form, read at any number of edges, at none and at one. -/
theorem oscillatorFrameRunsItsEdges : Obligations.OscillatorFrameRunsItsEdges := by
  intro c f vt s acc period period_eq _ fits
  replace period_eq : oscPeriod s f = period := (oscPeriod_eq s f).trans period_eq.symm
  refine ⟨?_, fun outlasts fb => ?_, fun _ within beyond => ⟨?_, fun m => ?_⟩⟩
  · intro fb e k rest d plain noise _ rest_eq range d_eq
    have edge_eq : e = oscEdge fb c := by
      cases fb with
      | none => exact plain rfl
      | some m => exact noise m rfl
    subst edge_eq d_eq
    exact osc_of_edges period_eq fits ⟨rest_eq, range⟩
  · have whole : highDuration fb c period 0 (s.timer c - 65536) s = if s.phase[c] then 65536 else 0 := by
      rw [highDuration_zero]
      congr 1
      omega
    rw [osc_of_edges period_eq fits (frameHasEdges_zero period outlasts), whole,
      contribution_of_whole_frame]
    rfl
  · rw [osc_of_edges period_eq fits (frameHasEdges_one within beyond), highDuration_one_melodic]
    rfl
  · rw [osc_of_edges period_eq fits (frameHasEdges_one within beyond), highDuration_one]
    rfl

end Sys2Proof.Machine
end

section
/-! The mixes (R135 to R140): what phase synchronisation leaves in each oscillator, the turns of the tone
generator's channels, and the speaker's winner. -/

namespace Sys2Proof.Machine

open Sys2Proof

/-! ## The frequency inputs and the amplitude -/

theorem tgInput_eq (s : State) (c : Fin 4) : tgInput s c = (s.reg (chanSlot c) .freq).toNat / 64 :=
  Nat.shiftRight_eq_div_pow _ 6

theorem oscInput_spk (freq : Word) : oscInput .spk freq = freq.toNat := rfl

theorem eq_volIndex_of_add {v : Word} {i : Fin 16} (h : i.val + v.toNat / 4096 = 15) :
    i = volIndex v :=
  Fin.ext (Nat.eq_sub_of_add_eq h)

theorem volTabRead_of_set {s : State} {tab : VolTab} (set : s.volTab = some tab) (i : Fin 16) :
    volTabRead s i = .next tab[i] := by
  rw [volTabRead, set]

theorem volTabRead_of_unset {s : State} (unset : s.volTab = none) (i : Fin 16) :
    volTabRead s i = .fault .volTabUnset := by
  rw [volTabRead, unset]

theorem volEntry_of_set {s : State} {c : Fin 4} {tab : VolTab} {i : Fin 16}
    (set : s.volTab = some tab) (index : i.val + (s.reg (chanSlot c) .volume).toNat / 4096 = 15) :
    volEntry s c = .next tab[i] := by
  rw [volEntry, ← eq_volIndex_of_add index, volTabRead_of_set set]

/-! ## One pair of phase synchronisation -/

/-- Channels `i` and `j` both sound, at the same frequency input (R135). -/
def alignedPair (s : State) (i j : Fin 4) : Bool :=
  sounding s i && sounding s j && tgInput s i == tgInput s j

theorem alignedPair_iff (s : State) (i j : Fin 4) :
    alignedPair s i j = true ↔ sounding s i = true ∧ sounding s j = true ∧
      (s.reg (chanSlot i) .freq).toNat / 64 = (s.reg (chanSlot j) .freq).toNat / 64 := by
  simp only [alignedPair, Bool.and_eq_true, beq_iff_eq, tgInput_eq, and_assoc]

/-- The pairs are a matter of the channel registers. -/
theorem alignedPair_congr {s t : State} (h : t.ch = s.ch) (i j : Fin 4) :
    alignedPair t i j = alignedPair s i j := by
  simp only [alignedPair, sounding, tgInput, State.reg_congr h]

theorem alignedPair_of_silent {s : State} {i : Fin 4} (silent : sounding s i = false) (j : Fin 4) :
    alignedPair s i j = false := by
  simp only [alignedPair, silent, Bool.false_and]

theorem State.oscillator_copyOsc (s : State) (i j k : Fin 4) :
    (s.copyOsc i j).oscillator k = if k = i then s.oscillator j else s.oscillator k := by
  split
  next same =>
    subst same
    exact State.oscillator_eq_iff.mpr ⟨Vector.getElem_set_self k.isLt, Vector.getElem_set_self k.isLt⟩
  next other =>
    have ne : (i : Nat) ≠ k := fun same => other (Fin.ext same.symm)
    exact State.oscillator_eq_iff.mpr
      ⟨Vector.getElem_set_ne i.isLt k.isLt ne, Vector.getElem_set_ne i.isLt k.isLt ne⟩

theorem syncPair_oscillator (i j k : Fin 4) (s : State) :
    (syncPair i j s).oscillator k =
      if k = i ∧ alignedPair s i j = true then s.oscillator j else s.oscillator k := by
  by_cases aligned : alignedPair s i j = true
  · rw [show syncPair i j s = s.copyOsc i j from if_pos aligned, State.oscillator_copyOsc]
    simp only [aligned, and_true]
  · rw [show syncPair i j s = s from if_neg aligned, if_neg fun both => aligned both.2]

/-- Only the oscillators, not `RNG`. -/
theorem syncPair_eq (i j : Fin 4) (s : State) :
    syncPair i j s =
      { s with timerCount := (syncPair i j s).timerCount, phase := (syncPair i j s).phase } := by
  unfold syncPair
  split <;> rfl

theorem syncPair_changesGenerators (i j : Fin 4) (s : State) : ChangesGenerators s (syncPair i j s) :=
  ⟨_, _, _, syncPair_eq i j s⟩

/-! ## The three pairs -/

theorem phaseSync_eq (s : State) :
    phaseSync s = { s with timerCount := (phaseSync s).timerCount, phase := (phaseSync s).phase } := by
  unfold phaseSync
  rw [syncPair_eq 2 1, syncPair_eq 2 0, syncPair_eq 1 0]

theorem phaseSync_changesGenerators (s : State) : ChangesGenerators s (phaseSync s) :=
  ⟨_, _, _, phaseSync_eq s⟩

section
variable (s : State)

theorem phaseSync_oscillator_zero : (phaseSync s).oscillator 0 = s.oscillator 0 := by
  simp [phaseSync, syncPair_oscillator]

theorem phaseSync_oscillator_three : (phaseSync s).oscillator 3 = s.oscillator 3 := by
  simp [phaseSync, syncPair_oscillator]

theorem phaseSync_oscillator_one :
    (phaseSync s).oscillator 1 =
      if alignedPair s 1 0 = true then s.oscillator 0 else s.oscillator 1 := by
  simp [phaseSync, syncPair_oscillator]

/-- Channel 1 is taken as its own pair has left it. -/
theorem phaseSync_oscillator_two :
    (phaseSync s).oscillator 2 =
      if alignedPair s 2 1 = true then (phaseSync s).oscillator 1
      else if alignedPair s 2 0 = true then s.oscillator 0 else s.oscillator 2 := by
  have first := syncPair_changesGenerators 1 0 s
  have second := first.trans (syncPair_changesGenerators 2 0 _)
  simp [phaseSync, syncPair_oscillator, alignedPair_congr first.ch, alignedPair_congr second.ch]

end

/-- A channel that is not sounding is in no pair. -/
theorem syncPair_oscillator_of_silent (i j : Fin 4) {k : Fin 4} {s : State}
    (silent : sounding s k = false) : (syncPair i j s).oscillator k = s.oscillator k := by
  rw [syncPair_oscillator, if_neg]
  rintro ⟨rfl, aligned⟩
  rw [alignedPair_of_silent silent] at aligned
  cases aligned

theorem phaseSync_oscillator_of_silent {c : Fin 4} {s : State} (silent : sounding s c = false) :
    (phaseSync s).oscillator c = s.oscillator c := by
  have first := ((syncPair_changesGenerators 1 0 s).sounding_eq c).trans silent
  have second := ((syncPair_changesGenerators 2 0 _).sounding_eq c).trans first
  exact (syncPair_oscillator_of_silent 2 1 second).trans <|
    (syncPair_oscillator_of_silent 2 0 first).trans (syncPair_oscillator_of_silent 1 0 silent)

/-- A state is given by its oscillators and the rest of it. -/
theorem State.eq_of_oscillators {s t : State}
    (rest : t = { s with timerCount := t.timerCount, phase := t.phase })
    (same : ∀ c, t.oscillator c = s.oscillator c) : t = s := by
  have timers : t.timerCount = s.timerCount :=
    Vector.ext fun i hi => (State.oscillator_eq_iff.mp (same ⟨i, hi⟩)).1
  have phases : t.phase = s.phase :=
    Vector.ext fun i hi => (State.oscillator_eq_iff.mp (same ⟨i, hi⟩)).2
  rw [rest, timers, phases]

/-- Channels that agree as R135 wants them to are left as they are. -/
theorem phaseSync_eq_self {s : State}
    (one : alignedPair s 1 0 = true → s.oscillator 0 = s.oscillator 1)
    (two : s.oscillator 2 = if alignedPair s 2 1 = true then s.oscillator 1
      else if alignedPair s 2 0 = true then s.oscillator 0 else s.oscillator 2) :
    phaseSync s = s := by
  have one_kept : (phaseSync s).oscillator 1 = s.oscillator 1 := by
    rw [phaseSync_oscillator_one]
    split
    next pair => exact one pair
    next => rfl
  have two_kept : (phaseSync s).oscillator 2 = s.oscillator 2 := by
    rw [phaseSync_oscillator_two, one_kept]
    exact two.symm
  have zero_kept := phaseSync_oscillator_zero s
  have three_kept := phaseSync_oscillator_three s
  have rest := phaseSync_eq s
  generalize phaseSync s = t at *
  refine State.eq_of_oscillators rest fun c => ?_
  obtain rfl | rfl | rfl | rfl : c = 0 ∨ c = 1 ∨ c = 2 ∨ c = 3 := by omega
  · exact zero_kept
  · exact one_kept
  · exact two_kept
  · exact three_kept

theorem phaseSync_idempotent (s : State) : phaseSync (phaseSync s) = phaseSync s := by
  have pairs := alignedPair_congr (phaseSync_changesGenerators s).ch
  have zero := phaseSync_oscillator_zero s
  have one := phaseSync_oscillator_one s
  have two := phaseSync_oscillator_two s
  generalize phaseSync s = t at *
  refine phaseSync_eq_self (fun pair => ?_) ?_
  · rw [one, if_pos (pairs 1 0 ▸ pair), zero]
  · rw [pairs, pairs, zero, two]
    split
    · rfl
    · split <;> rfl

/-- Settles O38: the pairs in their order, oscillator by oscillator. -/
theorem phaseSyncAlignsEqualChannels : Obligations.PhaseSyncAlignsEqualChannels := by
  intro s eq eq_iff
  replace eq_iff (i j : Fin 4) : eq i j ↔ alignedPair s i j = true :=
    (eq_iff i j).trans (alignedPair_iff s i j).symm
  simp only [eq_iff]
  have zero := phaseSync_oscillator_zero s
  have one := phaseSync_oscillator_one s
  have two := phaseSync_oscillator_two s
  have three := phaseSync_oscillator_three s
  have rest := phaseSync_eq s
  have again := phaseSync_idempotent s
  generalize phaseSync s = t at *
  refine ⟨State.oscillator_eq_iff.mp zero, State.oscillator_eq_iff.mp three,
    fun pair => State.oscillator_eq_iff.mp (one.trans (if_pos pair)),
    fun no_pair => State.oscillator_eq_iff.mp (one.trans (if_neg no_pair)),
    fun pair => State.oscillator_eq_iff.mp (two.trans (if_pos pair)),
    fun no_pair pair => ?_, fun no_pair no_pair' => ?_, rest, again⟩
  · exact State.oscillator_eq_iff.mp (two.trans ((if_neg no_pair).trans (if_pos pair)))
  · exact State.oscillator_eq_iff.mp (two.trans ((if_neg no_pair).trans (if_neg no_pair')))

/-! ## One turn of the tone generator -/

theorem tgChannel_of_tone {c : Fin 4} {s : State} {acc : Int} {tab : VolTab} {i : Fin 16}
    (sounds : sounding s c = true) (melodic : c ≠ 3) (set : s.volTab = some tab)
    (index : i.val + (s.reg (chanSlot c) .volume).toNat / 4096 = 15) :
    tgChannel c (s, acc) = osc c ((s.reg (chanSlot c) .freq).toNat / 64) tab[i] none (s, acc) := by
  rw [tgChannel_of_melodic sounds melodic, melodicOsc, volEntry_of_set set index, andThen_next,
    tgInput_eq]

theorem noiseOsc_of_set {s : State} {acc : Int} {tab : VolTab} {i : Fin 16} {f : Nat}
    (set : s.volTab = some tab) (index : i.val + (s.reg (chanSlot 3) .volume).toNat / 4096 = 15)
    (control : f = (s.reg (chanSlot 3) .freq).toNat / 64) :
    noiseOsc (s, acc) =
      osc 3 (noiseInput f ((s.reg (chanSlot 2) .freq).toNat / 64)) tab[i] (some (noiseMask s.cfg f))
        (s, acc) := by
  rw [noiseOsc, volEntry_of_set set index, andThen_next, noiseControl, tgInput_eq, tgInput_eq, control]

theorem tgChannel_of_unset {c : Fin 4} {x : State × Int} (sounds : sounding x.1 c = true)
    (unset : x.1.volTab = none) : tgChannel c x = .fault .volTabUnset := by
  have entry : volEntry x.1 c = .fault .volTabUnset := volTabRead_of_unset unset _
  by_cases noise : c = 3
  · subst noise
    rw [tgChannel_of_noise sounds, noiseOsc, entry, andThen_fault]
  · rw [tgChannel_of_melodic sounds noise, melodicOsc, entry, andThen_fault]

/-- What a turn was: the drain of a silent channel, or a frame of its oscillator (R138). -/
theorem tgChannel_next {c : Fin 4} {x y : State × Int} (h : tgChannel c x = .next y) :
    (sounding x.1 c = false ∧ y = (drain c x.1, x.2)) ∨
      (sounding x.1 c = true ∧ ∃ f vt fb, osc c f vt fb x = .next y) := by
  cases sounds : sounding x.1 c with
  | false =>
    rw [tgChannel_of_silent sounds] at h
    cases h
    exact .inl ⟨rfl, rfl⟩
  | true =>
    refine .inr ⟨rfl, ?_⟩
    by_cases noise : c = 3
    · subst noise
      rw [tgChannel_of_noise sounds] at h
      obtain ⟨vt, -, h⟩ := andThen_eq_next.mp h
      exact ⟨_, _, _, h⟩
    · rw [tgChannel_of_melodic sounds noise] at h
      obtain ⟨vt, -, h⟩ := andThen_eq_next.mp h
      exact ⟨_, _, _, h⟩

/-- A countdown stops at 0 (R137). -/
theorem drain_timer_self (c : Fin 4) (s : State) :
    (drain c s).timer c = max 0 (s.timer c - 65536) := by
  have below := s.timer_lt c
  exact State.timer_setTimer_self s c (by omega) (by omega)

theorem tgChannel_changesGenerators {c : Fin 4} {x y : State × Int} (h : tgChannel c x = .next y) :
    ChangesGenerators x.1 y.1 := by
  obtain ⟨-, rfl⟩ | ⟨-, f, vt, fb, h⟩ := tgChannel_next h
  · exact drain_changesGenerators c x.1
  · exact osc_changesGenerators h

theorem tgChannel_oscillator_ne {c c' : Fin 4} (hc : c' ≠ c) {x y : State × Int}
    (h : tgChannel c x = .next y) : y.1.oscillator c' = x.1.oscillator c' := by
  obtain ⟨-, rfl⟩ | ⟨-, f, vt, fb, h⟩ := tgChannel_next h
  · exact x.1.oscillator_setTimer_ne hc _
  · exact osc_oscillator_ne hc h

/-! ## The turns of the tone generator -/

/-- The turns of the channels of a list, in its order. -/
def tgTurns : List (Fin 4) → State × Int → Res (State × Int)
  | [], x => .next x
  | c :: cs, x => andThen (tgChannel c x) (tgTurns cs)

theorem mem_channels : ∀ c : Fin 4, c ∈ [0, 1, 2, 3] := by decide

theorem andThen_done {α : Type} (o : Res α) : andThen o .next = o := by
  cases o <;> rfl

theorem tgMix_eq_tgTurns (s : State) : tgMix s = tgTurns [0, 1, 2, 3] (phaseSync s, 0) := by
  have last : tgTurns [3] = tgChannel 3 := funext fun x => andThen_done (tgChannel 3 x)
  rw [tgTurns, show tgTurns [1, 2, 3] = fun x => andThen (tgChannel 1 x) fun x =>
    andThen (tgChannel 2 x) (tgTurns [3]) from rfl, last]
  rfl

theorem tgTurns_changesGenerators {cs : List (Fin 4)} {x y : State × Int}
    (h : tgTurns cs x = .next y) : ChangesGenerators x.1 y.1 := by
  induction cs generalizing x with
  | nil => cases h; exact .refl _
  | cons c cs ih =>
    obtain ⟨z, turn, h⟩ := andThen_eq_next.mp h
    exact (tgChannel_changesGenerators turn).trans (ih h)

/-- Without a table the first sounding channel's turn ends the mix. -/
theorem tgTurns_of_unset {cs : List (Fin 4)} {x : State × Int} (unset : x.1.volTab = none)
    (sounds : ∃ c ∈ cs, sounding x.1 c = true) : tgTurns cs x = .fault .volTabUnset := by
  induction cs generalizing x with
  | nil => obtain ⟨c, unlisted, -⟩ := sounds; cases unlisted
  | cons d cs ih =>
    rw [tgTurns]
    cases loud : sounding x.1 d with
    | true => rw [tgChannel_of_unset loud unset, andThen_fault]
    | false =>
      have drained := drain_changesGenerators d x.1
      rw [tgChannel_of_silent loud, andThen_next]
      refine ih (drained.volTab.trans unset) ?_
      obtain ⟨c, listed, sounds⟩ := sounds
      have other : c ≠ d := fun same => by rw [same, loud] at sounds; cases sounds
      exact ⟨c, List.mem_of_ne_of_mem other listed, (drained.sounding_eq c).trans sounds⟩

/-- Silent channels all take their turns. -/
theorem tgTurns_of_silent (cs : List (Fin 4)) {x : State × Int}
    (silent : ∀ c, sounding x.1 c = false) : ∃ y, tgTurns cs x = .next y := by
  induction cs generalizing x with
  | nil => exact ⟨x, rfl⟩
  | cons d cs ih =>
    have drained := drain_changesGenerators d x.1
    rw [tgTurns, tgChannel_of_silent (silent d), andThen_next]
    exact ih fun c => (drained.sounding_eq c).trans (silent c)

theorem tgTurns_oscillator_of_not_mem {cs : List (Fin 4)} {c : Fin 4} (unlisted : c ∉ cs)
    {x y : State × Int} (h : tgTurns cs x = .next y) : y.1.oscillator c = x.1.oscillator c := by
  induction cs generalizing x with
  | nil => cases h; rfl
  | cons d cs ih =>
    rw [List.mem_cons, not_or] at unlisted
    obtain ⟨other, unlisted⟩ := unlisted
    obtain ⟨z, turn, h⟩ := andThen_eq_next.mp h
    exact (ih unlisted h).trans (tgChannel_oscillator_ne other turn)

/-- The one turn of a silent channel drains it. -/
theorem tgTurns_of_nodup_of_silent {cs : List (Fin 4)} (once : cs.Nodup) {c : Fin 4} (listed : c ∈ cs)
    {x y : State × Int} (silent : sounding x.1 c = false) (h : tgTurns cs x = .next y) :
    y.1.timer c = max 0 (x.1.timer c - 65536) ∧ y.1.phase[c] = x.1.phase[c] := by
  induction cs generalizing x with
  | nil => cases listed
  | cons d cs ih =>
    obtain ⟨unlisted, once⟩ := List.nodup_cons.mp once
    obtain ⟨z, turn, h⟩ := andThen_eq_next.mp h
    by_cases own : c = d
    · subst own
      rw [tgChannel_of_silent silent] at turn
      cases turn
      have kept : y.1.oscillator c = (drain c x.1).oscillator c :=
        tgTurns_oscillator_of_not_mem unlisted h
      have phase : y.1.phase[c] = (drain c x.1).phase[c] := State.phase_of_oscillator_eq kept
      exact ⟨(State.timer_of_oscillator_eq kept).trans (drain_timer_self c x.1), phase⟩
    · have kept : z.1.oscillator c = x.1.oscillator c := tgChannel_oscillator_ne own turn
      have still : sounding z.1 c = false :=
        ((tgChannel_changesGenerators turn).sounding_eq c).trans silent
      rw [← State.timer_of_oscillator_eq kept, ← State.phase_of_oscillator_eq kept]
      exact ih once (List.mem_of_ne_of_mem own listed) still h

/-! ## The speaker (R140) -/

theorem winner_eq_none_iff (s : State) : winner s = none ↔ ∀ c, sounding s c = false := by
  rw [winner]
  constructor
  · intro nobody c
    split_ifs at nobody with zero one two three
    rw [Bool.not_eq_true] at zero one two three
    obtain rfl | rfl | rfl | rfl : c = 0 ∨ c = 1 ∨ c = 2 ∨ c = 3 := by omega
    · exact zero
    · exact one
    · exact two
    · exact three
  · intro silent
    simp only [silent, Bool.false_eq_true, if_false]

/-- The winner is the smallest channel that sounds. -/
theorem winner_eq_some_of_first {s : State} {w : Fin 4} (sounds : sounding s w = true)
    (first : ∀ j, j < w → sounding s j = false) : winner s = some w := by
  simp only [winner]
  obtain rfl | rfl | rfl | rfl : w = 0 ∨ w = 1 ∨ w = 2 ∨ w = 3 := by omega
  · rw [if_pos sounds]
  · simp [sounds, first 0 (by decide)]
  · simp [sounds, first 0 (by decide), first 1 (by decide)]
  · simp [sounds, first 0 (by decide), first 1 (by decide), first 2 (by decide)]

theorem spkMix_of_winner {s : State} {w : Fin 4} (wins : winner s = some w) :
    spkMix s = andThen (volTabRead s 0) fun vt =>
      osc 0 (s.reg (chanSlot w) .freq).toNat vt none (s, 0) := by
  simp only [spkMix, wins, oscInput_spk]

theorem spkMix_of_silent {s : State} (silent : ∀ c, sounding s c = false) :
    spkMix s = .next (s, 0) := by
  rw [spkMix, (winner_eq_none_iff s).mpr silent]

theorem spkMix_of_unset {s : State} (sounds : ∃ c, sounding s c = true) (unset : s.volTab = none) :
    spkMix s = .fault .volTabUnset := by
  obtain ⟨c, sounds⟩ := sounds
  have wins : winner s ≠ none := fun nobody => by
    rw [(winner_eq_none_iff s).mp nobody c] at sounds
    cases sounds
  obtain ⟨w, wins⟩ := Option.ne_none_iff_exists'.mp wins
  rw [spkMix_of_winner wins, volTabRead_of_unset unset, andThen_fault]

/-- What the speaker's mix was: nothing where no channel sounds, else a frame of oscillator 0. -/
theorem spkMix_next {s : State} {x : State × Int} (h : spkMix s = .next x) :
    x = (s, 0) ∨ (∃ c, sounding s c = true) ∧ ∃ f vt, osc 0 f vt none (s, 0) = .next x := by
  by_cases silent : ∀ c, sounding s c = false
  · rw [spkMix_of_silent silent] at h
    cases h
    exact .inl rfl
  · have wins := mt (winner_eq_none_iff s).mp silent
    obtain ⟨w, wins⟩ := Option.ne_none_iff_exists'.mp wins
    rw [spkMix_of_winner wins] at h
    obtain ⟨vt, -, h⟩ := andThen_eq_next.mp h
    simp only [not_forall, Bool.not_eq_false] at silent
    exact .inr ⟨silent, _, vt, h⟩

/-- Settles O40: each turn of the tone generator by what its channel is, and the speaker by its winner. -/
theorem mixRendersSoundingChannels : Obligations.MixRendersSoundingChannels := by
  refine ⟨fun s => rfl, fun c s acc silent => tgChannel_of_silent silent,
    fun c s acc tab i sounds melodic set index => tgChannel_of_tone sounds melodic set index,
    fun s acc tab i f sounds set index control => ?_,
    fun c s acc sounds unset => tgChannel_of_unset sounds unset,
    fun s => ⟨fun w tab sounds first set => ?_, spkMix_of_unset, spkMix_of_silent⟩⟩
  · rw [tgChannel_of_noise sounds, noiseOsc_of_set set index control, noiseInput_eq, noiseMask_eq]
  · rw [spkMix_of_winner (winner_eq_some_of_first sounds first), volTabRead_of_set set, andThen_next]
    rfl

/-! ## The frame (R136, R150) -/

theorem tgMix_changesGenerators {s : State} {x : State × Int} (h : tgMix s = .next x) :
    ChangesGenerators s x.1 := by
  have synced := phaseSync_changesGenerators s
  rw [tgMix_eq_tgTurns] at h
  generalize phaseSync s = u at synced h
  exact synced.trans (tgTurns_changesGenerators h)

theorem spkMix_changesGenerators {s : State} {x : State × Int} (h : spkMix s = .next x) :
    ChangesGenerators s x.1 := by
  obtain rfl | ⟨-, f, vt, h⟩ := spkMix_next h
  · exact .refl s
  · exact osc_changesGenerators h

theorem mix_changesGenerators {s : State} {x : State × Int} (h : mix s = .next x) :
    ChangesGenerators s x.1 := by
  cases hp : s.profile with
  | spk => exact spkMix_changesGenerators (mix_of_spk hp ▸ h)
  | tg => exact tgMix_changesGenerators (mix_of_tg hp ▸ h)

theorem frameStep_of_mix {s u : State} {acc : Int} (h : mix s = .next (u, acc)) :
    frameStep s = .next (finishFrame (u, acc)) := by
  rw [frameStep, h, andThen_next]

/-- Settles O42: the mix writes nothing but the generators, and the end of the frame `LEVEL` and the
stream. -/
theorem frameStepEmitsOneFrame : Obligations.FrameStepEmitsOneFrame := by
  refine ⟨fun s => ⟨mix_of_spk, mix_of_tg⟩,
    fun s u acc mixed => ⟨_, frameStep_of_mix mixed, rfl, rfl, rfl, rfl⟩, fun s t h => ?_⟩
  obtain ⟨x, mixed, rfl⟩ := frameStep_next h
  have kept : ChangesGenerators s x.1 := mix_changesGenerators mixed
  obtain ⟨-, next_tick, out, ticks⟩ := kept.output
  refine ⟨?_, kept.sameRegisters, kept.sameMusicTimer, kept.sameSetup, next_tick, ticks, kept.sameHost⟩
  rw [← out]
  rfl

/-- Settles O37: the first sounding channel of the tone generator, or the winner of the speaker, reads the
table; silent channels drain and complete. -/
theorem unsetTableFaultsOnlyWhenSounding : Obligations.UnsetTableFaultsOnlyWhenSounding := by
  intro s
  have synced : ChangesGenerators s (phaseSync s) := phaseSync_changesGenerators s
  refine ⟨fun unset sounds => ?_, fun silent => ?_⟩
  · have fault : mix s = .fault .volTabUnset := by
      cases hp : s.profile with
      | spk => rw [mix_of_spk hp, spkMix_of_unset sounds unset]
      | tg =>
        obtain ⟨c, sounds⟩ := sounds
        rw [mix_of_tg hp, tgMix_eq_tgTurns]
        generalize phaseSync s = u at synced
        exact tgTurns_of_unset (synced.volTab.trans unset)
          ⟨c, mem_channels c, (synced.sounding_eq c).trans sounds⟩
    rw [frameStep, fault, andThen_fault]
  · have done : ∃ x, mix s = .next x := by
      cases hp : s.profile with
      | spk => exact ⟨_, (mix_of_spk hp).trans (spkMix_of_silent silent)⟩
      | tg =>
        rw [mix_of_tg hp, tgMix_eq_tgTurns]
        generalize phaseSync s = u at synced
        exact tgTurns_of_silent _ fun c => (synced.sounding_eq c).trans (silent c)
    obtain ⟨x, mixed⟩ := done
    exact ⟨_, frameStep_of_mix mixed⟩

/-- R137, as far as the mix of the tone generator goes: a silent channel is in no pair and drains. -/
theorem tgMix_of_silent_channel {s : State} {x : State × Int} {c : Fin 4}
    (silent : sounding s c = false) (h : tgMix s = .next x) :
    x.1.timer c = max 0 (s.timer c - 65536) ∧ x.1.phase[c] = s.phase[c] := by
  have synced := phaseSync_changesGenerators s
  have unsynced := phaseSync_oscillator_of_silent silent
  rw [tgMix_eq_tgTurns] at h
  generalize phaseSync s = u at synced unsynced h
  have still : sounding u c = false := (synced.sounding_eq c).trans silent
  rw [← State.timer_of_oscillator_eq unsynced, ← State.phase_of_oscillator_eq unsynced]
  exact tgTurns_of_nodup_of_silent (x := (u, 0)) (by decide) (mem_channels c) still h

/-- The speaker runs oscillator 0 alone, and only for a winner. -/
theorem spkMix_oscillator {s : State} {x : State × Int} {c : Fin 4}
    (idle : c ≠ 0 ∨ ∀ d, sounding s d = false) (h : spkMix s = .next x) :
    x.1.oscillator c = s.oscillator c := by
  obtain rfl | ⟨⟨d, sounds⟩, f, vt, h⟩ := spkMix_next h
  · rfl
  · refine osc_oscillator_ne (idle.resolve_right fun silent => ?_) h
    rw [silent d] at sounds
    cases sounds

/-- Settles O39: the end of a frame leaves every oscillator as the mix of the profile has left it. -/
theorem silentChannelDrains : Obligations.SilentChannelDrains := by
  intro s t h
  obtain ⟨x, mixed, rfl⟩ := frameStep_next h
  refine ⟨fun hp c silent => tgMix_of_silent_channel silent (mix_of_tg hp ▸ mixed),
    fun hp c idle => ?_⟩
  have same : x.1.oscillator c = s.oscillator c := spkMix_oscillator idle (mix_of_spk hp ▸ mixed)
  exact ⟨State.timer_of_oscillator_eq same, State.phase_of_oscillator_eq same⟩

end Sys2Proof.Machine
end

section
/-! The countdowns stay at 0 or above (R16, R141): an oscillator's frame leaves its own above 0, a drain stops
at 0, and phase synchronisation only copies. -/

namespace Sys2Proof.Machine

open Sys2Proof

/-! ## What a `PULL` keeps -/

/-- `P` is kept by each of the three things the loop of `PULL` does (R162): a frame, a tick, and a write of
the divider. -/
structure KeptByPull (P : State → Prop) : Prop where
  frame : ∀ {s t}, frameStep s = .next t → P s → P t
  tick : ∀ {s t}, tick s = .next t → P s → P t
  divider : ∀ s v, P s → P (s.setNextTick v)

section
variable {P : State → Prop} (hP : KeptByPull P)
include hP

theorem KeptByPull.frames_keeps {k : Nat} {s t : State} (h : frames k s = .next t) (hs : P s) :
    P t := by
  induction k generalizing s with
  | zero => cases h; exact hs
  | succ k ih =>
    obtain ⟨u, first, h⟩ := andThen_eq_next.mp h
    exact ih h (hP.frame first hs)

theorem KeptByPull.tickIfDue_keeps {s t : State} (h : tickIfDue s = .next t) (hs : P s) : P t := by
  rw [tickIfDue_eq] at h
  split at h
  · obtain ⟨u, ticked, h⟩ := andThen_eq_next.mp h
    cases h
    exact hP.divider u _ (hP.tick ticked hs)
  · cases h; exact hs

theorem KeptByPull.pullLoop_keeps {fuel left : Nat} {s t : State}
    (h : pullLoop fuel left s = .next t) (hs : P s) : P t := by
  induction fuel generalizing left s with
  | zero => cases h; exact hs
  | succ k ih =>
    by_cases done : left = 0
    · rw [done, pullLoop_none] at h; cases h; exact hs
    · rw [pullLoop_step done rfl] at h
      obtain ⟨u, rendered, h⟩ := andThen_eq_next.mp h
      obtain ⟨v, due, h⟩ := andThen_eq_next.mp h
      exact ih h (hP.tickIfDue_keeps due (hP.divider u _ (hP.frames_keeps rendered hs)))

theorem KeptByPull.execPull_keeps {n : BitVec 24} {s t : State} (h : execPull n s = .next t)
    (hs : P s) : P t := by
  unfold execPull at h
  split at h
  · cases h
  · exact hP.pullLoop_keeps h hs

end

/-! ## The countdowns in a frame -/

/-- `OscInv` reads nothing but the countdowns. -/
theorem OscInv.congr {s t : State} (h : t.timerCount = s.timerCount) (hs : OscInv s) : OscInv t :=
  fun c => by simpa only [State.timer, h] using hs c

/-- One countdown is rewritten at 0 or above, and the rest of the oscillators is kept. -/
theorem OscInv.of_one {s t : State} {c : Fin 4} (hs : OscInv s) (own : 0 ≤ t.timer c)
    (others : ∀ c' ≠ c, t.oscillator c' = s.oscillator c') : OscInv t := by
  intro c'
  by_cases same : c' = c
  · exact same ▸ own
  · exact (State.timer_of_oscillator_eq (others c' same)).symm ▸ hs c'

theorem osc_oscInv {c : Fin 4} {f : Nat} {vt : Word} {fb : Option Mask} {x y : State × Int}
    (h : osc c f vt fb x = .next y) (hx : OscInv x.1) : OscInv y.1 :=
  hx.of_one (osc_timer_bounds h).1.le fun _ other => osc_oscillator_ne other h

theorem drain_oscInv (c : Fin 4) {s : State} (hs : OscInv s) : OscInv (drain c s) :=
  hs.of_one (drain_timer_self c s ▸ le_max_left 0 _) fun _ other =>
    s.oscillator_setTimer_ne other _

theorem syncPair_oscInv (i j : Fin 4) {s : State} (hs : OscInv s) : OscInv (syncPair i j s) := by
  intro c
  have copied := syncPair_oscillator i j c s
  split at copied
  · exact (State.timer_of_oscillator_eq copied).symm ▸ hs j
  · exact (State.timer_of_oscillator_eq copied).symm ▸ hs c

theorem phaseSync_oscInv {s : State} (hs : OscInv s) : OscInv (phaseSync s) :=
  syncPair_oscInv 2 1 (syncPair_oscInv 2 0 (syncPair_oscInv 1 0 hs))

theorem tgChannel_oscInv {c : Fin 4} {x y : State × Int} (h : tgChannel c x = .next y)
    (hx : OscInv x.1) : OscInv y.1 := by
  obtain ⟨-, rfl⟩ | ⟨-, f, vt, fb, h⟩ := tgChannel_next h
  · exact drain_oscInv c hx
  · exact osc_oscInv h hx

theorem tgTurns_oscInv {cs : List (Fin 4)} {x y : State × Int} (h : tgTurns cs x = .next y)
    (hx : OscInv x.1) : OscInv y.1 := by
  induction cs generalizing x with
  | nil => cases h; exact hx
  | cons c cs ih =>
    obtain ⟨z, turn, h⟩ := andThen_eq_next.mp h
    exact ih h (tgChannel_oscInv turn hx)

theorem mix_oscInv {s : State} {x : State × Int} (h : mix s = .next x) (hs : OscInv s) :
    OscInv x.1 := by
  cases hp : s.profile with
  | spk =>
    obtain rfl | ⟨-, f, vt, h⟩ := spkMix_next (mix_of_spk hp ▸ h)
    · exact hs
    · exact osc_oscInv h hs
  | tg =>
    have synced := phaseSync_oscInv hs
    rw [mix_of_tg hp, tgMix_eq_tgTurns] at h
    generalize phaseSync s = u at synced h
    exact tgTurns_oscInv h synced

/-! ## `PULL` and the step -/

theorem oscInv_keptByPull : KeptByPull OscInv where
  frame h hs := by
    obtain ⟨x, mixed, rfl⟩ := frameStep_next h
    exact (mix_oscInv mixed hs).congr rfl
  tick h hs := by
    obtain ⟨v, kept, rfl⟩ := tick_tickFrame h
    obtain ⟨-, timers⟩ := kept.oscillators
    exact hs.congr timers
  divider _ _ hs := hs.congr rfl

/-- Of the other commands only `RESET` and `MODE` write the countdowns, with 0 (R26, R82). -/
theorem exec_oscInv {i : Instr} {s t : State} (h : exec i s = .next t) (hs : OscInv s) :
    OscInv t := by
  cases i with
  | nop | wrch | rdch | clrch | wrtpm | rdtmr =>
    obtain ⟨⟨-, timers⟩, -⟩ := exec_serviceFrame_of_allowedInService rfl h
    exact hs.congr timers
  | reset => cases h; exact (oscInv_resetOf s.inst).congr rfl
  | mode p => cases h; exact (oscInv_resetOf s.inst).congr rfl
  | setvol v => cases h; exact hs.congr rfl
  | pull n => exact oscInv_keptByPull.execPull_keeps h hs

/-- Settles O53: a step is an idle one, a reserved word or a command; of what a `PULL` does only the mixes
write countdowns. -/
theorem stepKeepsCountdownsNonneg : Obligations.StepKeepsCountdownsNonneg := by
  intro s t hs h
  obtain rfl | ⟨w, u, taken, ran⟩ := step_next h
  · exact hs
  · have hu : OscInv u := by
      rw [fetch_eq taken]
      exact hs.congr rfl
    obtain rfl | ⟨i, -, executed⟩ := ran
    · exact hu
    · exact exec_oscInv executed hu

end Sys2Proof.Machine
end

section
/-! The low-pass filter (R151 to R154): the step is the floor of a mean of `LEVEL` and the input with weights
that add to 65536, and the coefficient is the preset squared once per halving of the sample rate. -/

namespace Sys2Proof.Machine

open Sys2Proof

/-! ## The mean -/

/-- A floored mean of two values is not below a bound of both. -/
theorem le_filtered {d : Nat} (hd : d ≤ 65536) {m level acc : Int} (hl : m ≤ level) (ha : m ≤ acc) :
    m ≤ filtered d level acc := by
  refine Int.le_ediv_of_mul_le (by decide) ?_
  calc m * 65536 = m * d + m * (65536 - d) := by ring
    _ ≤ level * d + acc * (65536 - d) :=
      Int.add_le_add (Int.mul_le_mul_of_nonneg_right hl (by omega))
        (Int.mul_le_mul_of_nonneg_right ha (by omega))

/-- A floored mean of two values is not above a bound of both. -/
theorem filtered_le {d : Nat} (hd : d ≤ 65536) {m level acc : Int} (hl : level ≤ m) (ha : acc ≤ m) :
    filtered d level acc ≤ m := by
  refine Int.ediv_le_of_le_mul (by decide) ?_
  calc level * d + acc * (65536 - d) ≤ m * d + m * (65536 - d) :=
      Int.add_le_add (Int.mul_le_mul_of_nonneg_right hl (by omega))
        (Int.mul_le_mul_of_nonneg_right ha (by omega))
    _ = m * 65536 := by ring

/-! ## The coefficient -/

/-- `floor(d * d / 65536)`, what one turn of R153's loop does to the coefficient. -/
def squared (d : Nat) : Nat := d * d / 65536

theorem squared_le {d : Nat} (hd : d ≤ 65535) : squared d ≤ 65535 :=
  Nat.div_le_of_le_mul ((Nat.mul_le_mul hd hd).trans (by decide))

/-- From the reference rate on the loop leaves the coefficient alone, whatever its bound. -/
theorem decayLoop_of_ref_le {rate : Nat} (h : decayRefHz ≤ rate) (fuel d : Nat) :
    decayLoop fuel rate d = d := by
  cases fuel with
  | zero => rfl
  | succ fuel => exact if_neg (Nat.not_lt.mpr h)

/-- Below the reference rate the loop squares the coefficient and doubles the rate. -/
theorem decayLoop_of_lt_ref {rate : Nat} (h : rate < decayRefHz) (fuel d : Nat) :
    decayLoop (fuel + 1) rate d = decayLoop fuel (2 * rate) (squared d) :=
  if_pos h

theorem decayLoop_le (fuel rate : Nat) {d : Nat} (hd : d ≤ 65535) :
    decayLoop fuel rate d ≤ 65535 := by
  induction fuel generalizing rate d with
  | zero => exact hd
  | succ fuel ih =>
    obtain low | high := Nat.lt_or_ge rate decayRefHz
    · rw [decayLoop_of_lt_ref low]
      exact ih (2 * rate) (squared_le hd)
    · rwa [decayLoop_of_ref_le high]

/-- The number of turns depends on the rate alone, so a squaring before the loop can be made after it. -/
theorem decayLoop_squared (fuel rate d : Nat) :
    decayLoop fuel rate (squared d) = squared (decayLoop fuel rate d) := by
  induction fuel generalizing rate d with
  | zero => rfl
  | succ fuel ih =>
    obtain low | high := Nat.lt_or_ge rate decayRefHz
    · rw [decayLoop_of_lt_ref low, decayLoop_of_lt_ref low, ih]
    · rw [decayLoop_of_ref_le high, decayLoop_of_ref_le high]

/-- A bound within which the rate reaches the reference is not what ends the loop. -/
theorem decayLoop_succ_of_reaches {fuel rate : Nat} (h : decayRefHz ≤ 2 ^ fuel * rate) (d : Nat) :
    decayLoop (fuel + 1) rate d = decayLoop fuel rate d := by
  induction fuel generalizing rate d with
  | zero =>
    rw [pow_zero, Nat.one_mul] at h
    rw [decayLoop_of_ref_le h, decayLoop_of_ref_le h]
  | succ fuel ih =>
    obtain low | high := Nat.lt_or_ge rate decayRefHz
    · rw [pow_succ, Nat.mul_assoc] at h
      rw [decayLoop_of_lt_ref low, decayLoop_of_lt_ref low, ih h]
    · rw [decayLoop_of_ref_le high, decayLoop_of_ref_le high]

theorem decayFor_of_ref_le (preset : Word) {rate : Nat} (h : decayRefHz ≤ rate) :
    decayFor preset rate = preset.toNat :=
  decayLoop_of_ref_le h 15 _

/-- R153: half the sample rate takes one squaring more. -/
theorem decayFor_of_lt_ref (preset : Word) {rate : Nat} (pos : 0 < rate) (low : rate < decayRefHz) :
    decayFor preset rate = squared (decayFor preset (2 * rate)) := by
  have reaches : 30000 ≤ 2 ^ 14 * (2 * rate) := by omega
  calc decayLoop 15 rate preset.toNat
      = decayLoop 14 (2 * rate) (squared preset.toNat) := decayLoop_of_lt_ref low 14 _
    _ = squared (decayLoop 14 (2 * rate) preset.toNat) := decayLoop_squared 14 _ _
    _ = squared (decayLoop 15 (2 * rate) preset.toNat) := by rw [decayLoop_succ_of_reaches reaches]

theorem decay_le (cfg : Config) (p : Profile) : decay cfg p ≤ 65535 :=
  decayLoop_le 15 _ (Nat.le_pred_of_lt (decayPreset cfg p).isLt)

/-! ## The step -/

/-- R151, corner case 1: the mean fits 16 bits, so `LEVEL` holds it exactly. -/
theorem lpfStep_level_toInt (s : State) {acc : Int} (lo : -32768 ≤ acc) (hi : acc ≤ 32767) :
    (lpfStep acc s).level.toInt = filtered (decay s.cfg s.profile) s.level.toInt acc := by
  have hd : decay s.cfg s.profile ≤ 65536 := (decay_le _ _).trans (by decide)
  have lower := le_filtered hd s.level.le_toInt lo
  have upper := filtered_le hd (Int.le_sub_one_of_lt s.level.toInt_lt) hi
  rw [lpfStep, State.setLevel_level, BitVec.toInt_ofInt, Int.bmod_eq_of_le] <;> omega

/-- Settles O41: the step's result is the mean, which lies between its two values; the loop of R153 gives the
coefficient. -/
theorem filterStepIsWeightedMean : Obligations.FilterStepIsWeightedMean := by
  refine ⟨fun s acc lo hi => ?_, fun _ => ⟨rfl, rfl⟩, fun preset rate =>
    ⟨decayFor_of_ref_le preset, decayFor_of_lt_ref preset⟩⟩
  have hd : decay s.cfg s.profile ≤ 65535 := decay_le _ _
  have mean := lpfStep_level_toInt s lo hi
  refine ⟨hd, mean, ?_, ?_, rfl⟩ <;> rw [mean]
  · exact le_filtered (by omega) (min_le_left _ _) (min_le_right _ _)
  · exact filtered_le (by omega) (le_max_left _ _) (le_max_right _ _)

end Sys2Proof.Machine
end

section
/-! A frame does not read `NEXT_TICK` (R136, R162): rendered at another position of the divider it is the same
frame, or stops in the same way. -/

namespace Sys2Proof.Machine

open Sys2Proof

section
variable (v : BitVec 32)

/-! ## One oscillator -/

theorem oscEdge_setNextTick (fb : Option Mask) (c : Fin 4) (s : State) :
    oscEdge fb c (s.setNextTick v) = (oscEdge fb c s).setNextTick v := by
  cases fb with
  | none => rfl
  | some m =>
    cases low : s.rng.getLsbD 0 <;>
      simp only [oscEdge, lfsrEdge, State.setNextTick_rng, low] <;> rfl

theorem oscEdges_setNextTick (fb : Option Mask) (c : Fin 4) (period fuel : Nat) (t d : Int)
    (s : State) :
    oscEdges fb c period fuel t d (s.setNextTick v) =
      ((oscEdges fb c period fuel t d s).1, (oscEdges fb c period fuel t d s).2.1,
        (oscEdges fb c period fuel t d s).2.2.setNextTick v) := by
  induction fuel generalizing t d s with
  | zero => rfl
  | succ k ih =>
    by_cases due : t ≤ 0
    · simp only [oscEdges, if_pos due, oscEdge_setNextTick, ih]
      rfl
    · simp only [oscEdges, if_neg due]

theorem oscSpan_setNextTick (c : Fin 4) (period : Nat) (fb : Option Mask) (s : State) :
    oscSpan c period fb (s.setNextTick v) =
      ((oscSpan c period fb s).1, (oscSpan c period fb s).2.setNextTick v) := by
  have edges : frameEdges c period fb (s.setNextTick v) =
      ((frameEdges c period fb s).1, (frameEdges c period fb s).2.1,
        (frameEdges c period fb s).2.2.setNextTick v) :=
    oscEdges_setNextTick v fb c period _ _ _ s
  rw [oscSpan_eq, oscSpan_eq, edges]
  rfl

/-- A state with its `ACC`, the divider at `v`. -/
def atTick (x : State × Int) : State × Int := (x.1.setNextTick v, x.2)

/-- `f` comes to the same outcome with the divider at `v`, and leaves it there. -/
def IgnoresTick (f : State × Int → Res (State × Int)) : Prop :=
  ∀ x, f (atTick v x) = andThen (f x) fun y => .next (atTick v y)

theorem osc_ignoresTick (c : Fin 4) (f : Nat) (vt : Word) (fb : Option Mask) :
    IgnoresTick v (osc c f vt fb) := fun x => by
  have span := oscSpan_setNextTick v c (oscPeriod x.1 f) fb x.1
  obtain ⟨long, fault⟩ | ⟨fits, done⟩ := osc_cases c f vt fb x
  · rw [fault, andThen_fault]
    exact if_pos long
  · rw [done, andThen_next]
    refine (if_neg (not_le.mpr fits)).trans ?_
    change Host.Outcome.next ((oscSpan c (oscPeriod x.1 f) fb (x.1.setNextTick v)).2,
      clamp16 (x.2 + contribution (oscSpan c (oscPeriod x.1 f) fb (x.1.setNextTick v)).1 vt)) = _
    rw [span]
    rfl

/-! ## The mixes -/

/-- A turn that reads `VOLTAB` and runs an oscillator at that amplitude. -/
theorem andThen_osc_atTick (read : Res Word) {c : Fin 4} {f : Nat} {fb : Option Mask}
    (x : State × Int) :
    (andThen read fun vt => osc c f vt fb (atTick v x)) =
      andThen (andThen read fun vt => osc c f vt fb x) fun y => .next (atTick v y) := by
  rw [andThen_assoc]
  exact congrArg (andThen read) (funext fun vt => osc_ignoresTick v c f vt fb x)

theorem tgChannel_ignoresTick (c : Fin 4) : IgnoresTick v (tgChannel c) := fun x => by
  cases sounds : sounding x.1 c with
  | false =>
    rw [tgChannel_of_silent sounds, tgChannel_of_silent (x := atTick v x) sounds]
    rfl
  | true =>
    by_cases noise : c = 3
    · subst noise
      rw [tgChannel_of_noise sounds, tgChannel_of_noise (x := atTick v x) sounds]
      exact andThen_osc_atTick v (volEntry x.1 3) x
    · rw [tgChannel_of_melodic sounds noise, tgChannel_of_melodic (x := atTick v x) sounds noise]
      exact andThen_osc_atTick v (volEntry x.1 c) x

theorem tgTurns_ignoresTick (cs : List (Fin 4)) : IgnoresTick v (tgTurns cs) := by
  induction cs with
  | nil => exact fun x => rfl
  | cons c cs ih =>
    intro x
    rw [tgTurns, tgTurns, tgChannel_ignoresTick v c x, andThen_assoc, andThen_assoc]
    exact congrArg (andThen (tgChannel c x)) (funext ih)

theorem syncPair_setNextTick (i j : Fin 4) (s : State) :
    syncPair i j (s.setNextTick v) = (syncPair i j s).setNextTick v :=
  (apply_ite (fun t : State => t.setNextTick v) _ (s.copyOsc i j) s).symm

theorem phaseSync_setNextTick (s : State) :
    phaseSync (s.setNextTick v) = (phaseSync s).setNextTick v := by
  simp only [phaseSync, syncPair_setNextTick]

theorem mix_setNextTick (s : State) :
    mix (s.setNextTick v) = andThen (mix s) fun y => .next (atTick v y) := by
  cases hp : s.profile with
  | tg =>
    rw [mix_of_tg hp, mix_of_tg (s := s.setNextTick v) hp, tgMix_eq_tgTurns, tgMix_eq_tgTurns,
      phaseSync_setNextTick]
    generalize phaseSync s = u
    exact tgTurns_ignoresTick v _ (u, 0)
  | spk =>
    rw [mix_of_spk hp, mix_of_spk (s := s.setNextTick v) hp]
    cases wins : winner s with
    | none =>
      have silent := (winner_eq_none_iff s).mp wins
      rw [spkMix_of_silent silent, spkMix_of_silent (s := s.setNextTick v) silent]
      rfl
    | some w =>
      have wins_at : winner (s.setNextTick v) = some w := wins
      rw [spkMix_of_winner wins, spkMix_of_winner wins_at]
      exact andThen_osc_atTick v (volTabRead s 0) (s, 0)

/-! ## The frames -/

theorem frameStep_setNextTick (s : State) :
    frameStep (s.setNextTick v) = andThen (frameStep s) fun t => .next (t.setNextTick v) := by
  rw [frameStep, frameStep, mix_setNextTick, andThen_assoc, andThen_assoc]
  rfl

theorem frames_setNextTick (k : Nat) (s : State) :
    frames k (s.setNextTick v) = andThen (frames k s) fun t => .next (t.setNextTick v) := by
  induction k generalizing s with
  | zero => rfl
  | succ k ih =>
    rw [frames, frames, frameStep_setNextTick, andThen_assoc, andThen_assoc]
    exact congrArg (andThen (frameStep s)) (funext ih)

end

end Sys2Proof.Machine
end

section
/-! The clock divider and `PULL` (R162, R163): the loop as a recursion on the frames left, what one turn of it
can do, and from that the exact count of frames and ticks, the single frame, and batch independence. -/

namespace Sys2Proof.Machine

open Sys2Proof

/-! ## The frames a `PULL` emits -/

/-- From `s` to `t` exactly `k` frames of two equal samples have been emitted, and the setup and the words in
the port kept. -/
structure FramesEmitted (k : Nat) (s t : State) : Prop where
  out : ∃ fs : List Frame, fs.length = k ∧ (∀ f ∈ fs, f.left = f.right) ∧ t.out = s.out ++ fs
  setup : SameSetup s t
  port : t.port = s.port

theorem FramesEmitted.none {s t : State} (out : t.out = s.out) (setup : SameSetup s t)
    (port : t.port = s.port) : FramesEmitted 0 s t :=
  ⟨⟨[], rfl, nofun, by rw [out, List.append_nil]⟩, setup, port⟩

theorem FramesEmitted.trans {j k : Nat} {s t u : State} (h : FramesEmitted j s t)
    (h' : FramesEmitted k t u) : FramesEmitted (j + k) s u := by
  obtain ⟨fs, count, equal, out⟩ := h.out
  obtain ⟨gs, count', equal', out'⟩ := h'.out
  refine ⟨⟨fs ++ gs, ?_, fun f hf => ?_, ?_⟩, h.setup.trans h'.setup, h'.port.trans h.port⟩
  · rw [List.length_append, count, count']
  · exact (List.mem_append.mp hf).elim (equal f) (equal' f)
  · rw [out', out, List.append_assoc]

/-- What follows emits nothing. -/
theorem FramesEmitted.followed {k : Nat} {s t u : State} (h : FramesEmitted k s t) (out : u.out = t.out)
    (setup : SameSetup t u) (port : u.port = t.port) : FramesEmitted k s u :=
  h.trans (.none out setup port)

theorem FramesEmitted.length {k : Nat} {s t : State} (h : FramesEmitted k s t) :
    t.out.length = s.out.length + k := by
  obtain ⟨fs, count, -, out⟩ := h.out
  rw [out, List.length_append, count]

theorem FramesEmitted.cfg {k : Nat} {s t : State} (h : FramesEmitted k s t) : t.cfg = s.cfg := by
  obtain ⟨inst, -⟩ := h.setup
  rw [State.cfg, inst]

/-- Frames write neither the divider nor the count of ticks. -/
theorem frames_next {k : Nat} {s t : State} (h : frames k s = .next t) :
    FramesEmitted k s t ∧ t.nextTick = s.nextTick ∧ t.ticks = s.ticks := by
  induction k generalizing s with
  | zero => cases h; exact ⟨.none rfl (.refl _) rfl, rfl, rfl⟩
  | succ k ih =>
    obtain ⟨u, first, rest⟩ := andThen_eq_next.mp h
    obtain ⟨-, -, frame⟩ := frameStepEmitsOneFrame
    obtain ⟨out, -, -, setup, next_tick, ticks, port, -⟩ := frame s u first
    have one_frame : FramesEmitted 1 s u :=
      ⟨⟨[⟨u.level, u.level⟩], rfl, fun f hf => by rw [List.mem_singleton.mp hf], out⟩, setup, port⟩
    obtain ⟨emitted, next_tick', ticks'⟩ := ih rest
    exact ⟨Nat.add_comm 1 k ▸ one_frame.trans emitted, next_tick'.trans next_tick,
      ticks'.trans ticks⟩

/-! ## One turn of the loop -/

/-- One turn of the loop of R162: `m` frames, the countdown by as many, and a tick with its reload where one
is due then. -/
def pullTurn (m : Nat) (s : State) : Res State :=
  andThen (frames m s) fun t => tickIfDue (countDown m t)

theorem pullLoop_turn {fuel left : Nat} {s : State} (more : left ≠ 0) :
    pullLoop (fuel + 1) left s =
      andThen (pullTurn (min left (wholeFrames s)) s)
        (pullLoop fuel (left - min left (wholeFrames s))) := by
  rw [pullLoop_step more rfl, pullTurn, andThen_assoc]

/-- What a turn of `m` frames can do: it comes to a state `v` with `m` frames emitted and counted down, and
ends there, or, less than a frame being left, has made one tick on the way and reloads. -/
theorem pullTurn_next {m : Nat} {s u : State} (h : pullTurn m s = .next u) :
    ∃ v, FramesEmitted m s v ∧ v.nextTick.toNat = s.nextTick.toNat - m * one ∧
      (one ≤ v.nextTick.toNat ∧ v.ticks = s.ticks ∧ u = v ∨
        v.nextTick.toNat < one ∧ v.ticks = s.ticks + 1 ∧ u = reload v) := by
  obtain ⟨t, rendered, due⟩ := andThen_eq_next.mp h
  obtain ⟨emitted, next_tick, ticks⟩ := frames_next rendered
  have counted : FramesEmitted m s (countDown m t) :=
    emitted.followed (countDown_out m t) (countDown_sameSetup m t) (countDown_port m t)
  have ticks_counted : (countDown m t).ticks = s.ticks := (countDown_ticks m t).trans ticks
  have left : (countDown m t).nextTick.toNat = s.nextTick.toNat - m * one := by
    rw [countDown_nextTick, next_tick]
  rw [tickIfDue_eq] at due
  split at due
  · next low =>
    obtain ⟨v, ticked, reloaded⟩ := andThen_eq_next.mp due
    cases reloaded
    obtain ⟨w, kept, rfl⟩ := tick_tickFrame ticked
    obtain ⟨-, -, next_tick', out, ticks'⟩ := kept.sound
    refine ⟨{ w with ticks := w.ticks + 1 }, counted.followed out kept.setup kept.port, ?_,
      .inr ⟨?_, congrArg (· + 1) (ticks'.trans ticks_counted), rfl⟩⟩
    · exact (congrArg BitVec.toNat next_tick').trans left
    · exact (congrArg BitVec.toNat next_tick').trans_lt low
  · next high =>
    cases due
    exact ⟨_, counted, left, .inl ⟨not_lt.mp high, ticks_counted, rfl⟩⟩

theorem pullTurn_emitted {m : Nat} {s u : State} (h : pullTurn m s = .next u) :
    FramesEmitted m s u := by
  obtain ⟨v, emitted, -, ⟨-, -, rfl⟩ | ⟨-, -, rfl⟩⟩ := pullTurn_next h
  · exact emitted
  · exact emitted.followed (reload_out v) (reload_sameSetup v) (reload_port v)

section
variable {P : State → Prop}
  (turn : ∀ {m s u}, m ≤ wholeFrames s → pullTurn m s = .next u → P s → P u)
include turn

/-- A property that every turn keeps is kept by the loop. -/
theorem pullLoop_keeps_of_turn {fuel left : Nat} {s t : State} (h : pullLoop fuel left s = .next t)
    (hs : P s) : P t := by
  induction fuel generalizing left s with
  | zero => cases h; exact hs
  | succ k ih =>
    by_cases done : left = 0
    · rw [done, pullLoop_none] at h; cases h; exact hs
    · rw [pullLoop_turn done] at h
      obtain ⟨u, turned, h⟩ := andThen_eq_next.mp h
      exact ih h (turn (min_le_right _ _) turned hs)

theorem execPull_keeps_of_turn {n : BitVec 24} {s t : State} (h : execPull n s = .next t)
    (hs : P s) : P t := by
  unfold execPull at h
  split at h
  · cases h
  · exact pullLoop_keeps_of_turn turn h hs

end

/-! ## The divider does not drift (R163) -/

theorem wholeFrames_mul_le {m : Nat} {s : State} (h : m ≤ wholeFrames s) :
    m * one ≤ s.nextTick.toNat :=
  (Nat.mul_le_mul_right one h).trans (Nat.div_mul_le_self _ _)

/-- A turn takes from the divider what it adds to the frames, and adds a `TICK_STEP` for its tick. -/
theorem pullTurn_clockInv {m : Nat} {s u : State} (whole : m ≤ wholeFrames s)
    (h : pullTurn m s = .next u) (fits : tickFits s.cfg) (clock : ClockInv s) : ClockInv u := by
  obtain ⟨agree, bound⟩ := clock
  have enough : m * one ≤ s.nextTick.toNat := wholeFrames_mul_le whole
  have emitted := pullTurn_emitted h
  unfold ClockInv
  rw [emitted.cfg, emitted.length, Nat.mul_add, Nat.mul_comm one m]
  obtain ⟨v, to_v, left, ⟨-, ticks, rfl⟩ | ⟨low, ticks, rfl⟩⟩ := pullTurn_next h
  · rw [left, ticks]
    omega
  · rw [reload_nextTick (to_v.cfg ▸ fits) low, to_v.cfg, reload_ticks, ticks, Nat.add_one_mul s.ticks]
    omega

/-- With ticks of at least a frame, a turn ends with a whole frame ahead: a tick is made where none is. -/
theorem pullTurn_frame_ahead {m : Nat} {s u : State} (h : pullTurn m s = .next u)
    (fits : tickFits s.cfg) (long : one ≤ tickStep s.cfg) : one ≤ u.nextTick.toNat := by
  obtain ⟨v, emitted, -, ⟨ahead, -, rfl⟩ | ⟨low, -, rfl⟩⟩ := pullTurn_next h
  · exact ahead
  · rw [reload_nextTick (emitted.cfg ▸ fits) low, emitted.cfg]
    omega

/-- From `s` to `t` both parts of R163 are kept. -/
structure KeepsClock (s t : State) : Prop where
  inst : t.inst = s.inst
  clock : ClockInv s → ClockInv t
  ahead : one ≤ tickStep s.cfg → TickAhead s → TickAhead t

theorem KeepsClock.trans {s t u : State} (h : KeepsClock s t) (h' : KeepsClock t u) :
    KeepsClock s u where
  inst := h'.inst.trans h.inst
  clock := h'.clock ∘ h.clock
  ahead long := h'.ahead (by rwa [State.cfg, h.inst]) ∘ h.ahead long

/-- R163 speaks of the configuration, the divider, the stream and the count of ticks alone. -/
theorem KeepsClock.of_same {s t : State} (inst : t.inst = s.inst) (next_tick : t.nextTick = s.nextTick)
    (out : t.out = s.out) (ticks : t.ticks = s.ticks) : KeepsClock s t where
  inst := inst
  clock clock := by
    unfold ClockInv at clock ⊢
    rwa [State.cfg, inst, next_tick, out, ticks]
  ahead _ ahead := by
    unfold TickAhead at ahead ⊢
    rwa [next_tick, out]

theorem KeepsClock.refl (s : State) : KeepsClock s s := .of_same rfl rfl rfl rfl

/-- `RESET` starts the count again (log entry 7). -/
theorem execReset_keepsClock {s t : State} (h : execReset s = .next t) : KeepsClock s t := by
  cases h
  have carried : KeepsClock (State.resetOf s.inst)
      { State.resetOf s.inst with port := s.port, answers := s.answers } := .of_same rfl rfl rfl rfl
  exact ⟨rfl, fun _ => carried.clock (clockInv_resetOf s.inst),
    fun long _ => carried.ahead long (tickAhead_resetOf s.inst)⟩

theorem execPull_keepsClock {n : BitVec 24} {s t : State} (fits : tickFits s.cfg)
    (h : execPull n s = .next t) : KeepsClock s t := by
  refine execPull_keeps_of_turn (P := KeepsClock s) (fun {m u v} whole turned to_u => ?_) h (.refl s)
  obtain ⟨inst, -⟩ := (pullTurn_emitted turned).setup
  have fits_u : tickFits u.cfg := by rwa [State.cfg, to_u.inst]
  exact to_u.trans ⟨inst, pullTurn_clockInv whole turned fits_u,
    fun long _ _ => pullTurn_frame_ahead turned fits_u long⟩

/-- Of the other commands only `RESET` writes what R163 speaks of. -/
theorem exec_keepsClock {i : Instr} {s t : State} (fits : tickFits s.cfg) (h : exec i s = .next t) :
    KeepsClock s t := by
  cases i with
  | nop | wrch | rdch | clrch | wrtpm | rdtmr =>
    obtain ⟨-, -, -, ⟨inst, -⟩, ⟨-, -, next_tick, out, ticks⟩, -⟩ :=
      exec_serviceFrame_of_allowedInService rfl h
    exact .of_same inst next_tick out ticks
  | reset => exact execReset_keepsClock h
  | mode p => cases h; exact .of_same rfl rfl rfl rfl
  | setvol v => cases h; exact .of_same rfl rfl rfl rfl
  | pull n => exact execPull_keepsClock fits h

theorem step_keepsClock {s t : State} (fits : tickFits s.cfg) (h : step s = .next t) :
    KeepsClock s t := by
  obtain rfl | ⟨w, u, taken, ran⟩ := step_next h
  · exact .refl t
  · have to_u : KeepsClock s u := by
      rw [fetch_eq taken]
      exact .of_same rfl rfl rfl rfl
    obtain rfl | ⟨i, -, executed⟩ := ran
    · exact to_u
    · exact to_u.trans (exec_keepsClock (by rwa [State.cfg, to_u.inst]) executed)

/-- Settles O52: frames and countdown, tick and reload balance in every turn of a `PULL`, and no other
command but `RESET` writes what they balance. -/
theorem stepKeepsClockExact : Obligations.StepKeepsClockExact := fun _ _ fits clock h =>
  have kept := step_keepsClock fits h
  ⟨kept.clock clock, kept.ahead⟩

/-! ## The loop without its bound (log entry 12) -/

/-- `left` frames with as many turns of the loop as they can take. -/
def pullFrames (left : Nat) (s : State) : Res State := pullLoop (pullNeed left s) left s

theorem pullLoop_of_need_le {fuel left : Nat} {s : State} (enough : pullNeed left s ≤ fuel) :
    pullLoop fuel left s = pullFrames left s := by
  induction fuel, enough using Nat.le_induction with
  | base => rfl
  | succ fuel enough ih => rw [pullLoop_succ enough, ih]

/-- A `PULL` is the loop alone: no clock is stuck (R4). -/
theorem exec_pull (n : BitVec 24) (s : State) : exec (.pull n) s = pullFrames n.toNat s := by
  have need : pullNeed n.toNat s ≤ pullBound n.toNat := by
    unfold pullNeed pullBound
    omega
  rw [← pullLoop_of_need_le need]
  exact if_neg (tickStep_pos s.inst).ne'

theorem pullFrames_zero (s : State) : pullFrames 0 s = .next s := pullLoop_none _ s

/-- R162 corner case 5: a turn emits a frame, or moves the divider up. -/
theorem pullNeed_turn {left m : Nat} {s u : State} (more : left ≠ 0) (hm : m = min left (wholeFrames s))
    (h : pullTurn m s = .next u) : pullNeed (left - m) u < pullNeed left s := by
  have need_pos : 0 < pullNeed left s :=
    Nat.add_pos_left (Nat.mul_pos (Nat.pos_of_ne_zero more) one.succ_pos) _
  by_cases low : s.nextTick.toNat < one
  · obtain rfl : m = 0 := by rw [hm, wholeFrames_eq_zero.mpr low, Nat.min_zero]
    obtain ⟨v, -, at_v, ⟨high, -⟩ | ⟨-, -, rfl⟩⟩ := pullTurn_next h
    · omega
    · have up : v.nextTick.toNat < (reload v).nextTick.toNat := reload_progress (by omega)
      rw [pullNeed, pullNeed, Nat.sub_zero]
      omega
  · have some_frame : 1 ≤ m := by
      have := mt wholeFrames_eq_zero.mp low
      omega
    have shorter := pullNeed_frames (b := u.nextTick.toNat) more some_frame
      (show pullNeed left s ≤ (pullNeed left s - 1) + 1 by omega)
    unfold pullNeed at shorter need_pos ⊢
    omega

/-- The loop of R162: a turn, and then what is left. -/
theorem pullFrames_turn {left m : Nat} {s : State} (more : left ≠ 0)
    (hm : m = min left (wholeFrames s)) :
    pullFrames left s = andThen (pullTurn m s) (pullFrames (left - m)) := by
  rw [← pullLoop_of_need_le (Nat.le_add_right _ 1), pullLoop_turn more, ← hm]
  cases turned : pullTurn m s with
  | next u =>
    rw [andThen_next, andThen_next]
    exact pullLoop_of_need_le (pullNeed_turn more hm turned).le
  | fault r => rw [andThen_fault, andThen_fault]
  | refused r => rw [andThen_refused, andThen_refused]

/-! ## How many frames -/

theorem pullFrames_emitted {left : Nat} {s t : State} (h : pullFrames left s = .next t) :
    FramesEmitted left s t := by
  induction need : pullNeed left s using Nat.strongRecOn generalizing left s with
  | ind k ih =>
    subst need
    by_cases more : left = 0
    · rw [more, pullFrames_zero] at h
      cases h
      exact more ▸ .none rfl (.refl _) rfl
    · rw [pullFrames_turn more rfl] at h
      obtain ⟨u, turned, rest⟩ := andThen_eq_next.mp h
      have all := (pullTurn_emitted turned).trans (ih _ (pullNeed_turn more rfl turned) rest rfl)
      rwa [Nat.add_sub_cancel' (min_le_left _ _)] at all

/-! ## One frame (R162) -/

theorem countDown_one {s : State} (whole : 65536 ≤ s.nextTick.toNat) :
    countDown 1 s = { s with nextTick := s.nextTick - 65536 } := by
  have same : BitVec.ofNat 32 (s.nextTick.toNat - 1 * 65536) = s.nextTick - 65536 := by bv_omega
  rw [countDown, same]
  rfl

theorem pullFrames_one_of_whole {s : State} (whole : 65536 ≤ s.nextTick.toNat) :
    pullFrames 1 s = andThen (frameStep s) fun t =>
      if t.nextTick.toNat - 65536 < 65536 then
        andThen (tick { t with nextTick := t.nextTick - 65536 }) fun u => .next (reload u)
      else .next { t with nextTick := t.nextTick - 65536 } := by
  have one_turn : 1 = min 1 (wholeFrames s) :=
    (min_eq_left ((Nat.one_le_div_iff (by decide)).mpr whole)).symm
  rw [pullFrames_turn one_ne_zero one_turn, pullTurn, frames_one, andThen_assoc]
  cases rendered : frameStep s with
  | fault r => rw [andThen_fault, andThen_fault]
  | refused r => rw [andThen_refused, andThen_refused]
  | next t =>
    obtain ⟨-, next_tick, -⟩ := frames_next (frames_one s ▸ rendered)
    have left : (countDown 1 t).nextTick.toNat = t.nextTick.toNat - 65536 := countDown_nextTick t 1
    have none_left : pullFrames (1 - 1) = .next := funext pullFrames_zero
    rw [andThen_next, andThen_next, none_left, andThen_done, tickIfDue_eq, left,
      countDown_one (next_tick ▸ whole)]

theorem pullFrames_of_due {left : Nat} {s : State} (more : left ≠ 0) (due : s.nextTick.toNat < 65536) :
    pullFrames left s = andThen (tick s) fun u => pullFrames left (reload u) := by
  have no_frame : 0 = min left (wholeFrames s) := by rw [wholeFrames_eq_zero.mpr due, Nat.min_zero]
  rw [pullFrames_turn more no_frame, pullTurn, frames, andThen_next, countDown_zero, tickIfDue_eq,
    if_pos due, andThen_assoc, Nat.sub_zero]
  exact congrArg (andThen (tick s)) (funext fun u => by rw [andThen_next])

theorem reload_of_fits {s : State} (fits : s.nextTick.toNat + tickStep s.cfg < 2 ^ 32) :
    reload s = { s with nextTick := s.nextTick + BitVec.ofNat 32 (tickStep s.cfg) } := by
  have sum : BitVec.ofNat 32 (s.nextTick.toNat + tickStep s.cfg) =
      s.nextTick + BitVec.ofNat 32 (tickStep s.cfg) := by
    rw [BitVec.ofNat_add, BitVec.ofNat_toNat, BitVec.setWidth_eq]
  rw [reload, if_pos fits, sum]
  rfl

/-- Of the free value only this is known (log entry 3). -/
theorem one_le_overflowedTick (ticks sum : Nat) : one ≤ (overflowedTick ticks sum).toNat := by
  have fits : max one (Config.freeNextTick ticks sum).toNat < 2 ^ 32 :=
    max_lt (by decide) (BitVec.isLt _)
  rw [overflowedTick, BitVec.toNat_ofNat, Nat.mod_eq_of_lt fits]
  exact le_max_left _ _

theorem reload_of_overflow {s : State} (overflow : 2 ^ 32 ≤ s.nextTick.toNat + tickStep s.cfg) :
    reload s =
      s.setNextTick (overflowedTick s.ticks (s.nextTick.toNat + tickStep s.cfg)) := by
  rw [reload, if_neg (by omega)]

/-- Settles O47: `PULL 1` is one turn where a whole frame is left and a tick before it where none is; the
count of frames is by induction on the turns. -/
theorem pullEmitsExactlyN : Obligations.PullEmitsExactlyN := by
  refine ⟨fun s => ⟨fun whole => ?_, fun due => ?_, reload_of_fits,
    fun overflow => ⟨_, one_le_overflowedTick _ _, reload_of_overflow overflow⟩⟩, fun n s t h => ?_⟩
  · rw [exec_pull]
    exact pullFrames_one_of_whole whole
  · rw [exec_pull, funext fun u => exec_pull 1 (reload u)]
    exact pullFrames_of_due one_ne_zero due
  · have emitted := pullFrames_emitted (exec_pull n s ▸ h)
    exact ⟨emitted.out, emitted.setup, emitted.port⟩

/-! ## Batch independence (R162 corner case 6) -/

theorem State.setNextTick_setNextTick (s : State) (v w : BitVec 32) :
    (s.setNextTick v).setNextTick w = s.setNextTick w := rfl

theorem countDown_add (a b : Nat) (s : State) : countDown b (countDown a s) = countDown (a + b) s := by
  have left : s.nextTick.toNat - a * one - b * one = s.nextTick.toNat - (a + b) * one := by
    rw [Nat.sub_sub, Nat.add_mul]
  rw [countDown, countDown_nextTick, left, countDown, State.setNextTick_setNextTick, ← countDown]

theorem frames_countDown (a b : Nat) (s : State) :
    frames b (countDown a s) = andThen (frames b s) fun t => .next (countDown a t) := by
  rw [countDown, frames_setNextTick]
  cases rendered : frames b s with
  | fault r => rw [andThen_fault, andThen_fault]
  | refused r => rw [andThen_refused, andThen_refused]
  | next t =>
    obtain ⟨-, next_tick, -⟩ := frames_next rendered
    rw [andThen_next, andThen_next, countDown, next_tick]

/-- Short of the next tick, frames are all that a turn makes. -/
theorem pullTurn_of_short {m : Nat} {s : State} (short : m < wholeFrames s) :
    pullTurn m s = andThen (frames m s) fun t => .next (countDown m t) := by
  rw [pullTurn]
  cases rendered : frames m s with
  | fault r => rw [andThen_fault, andThen_fault]
  | refused r => rw [andThen_refused, andThen_refused]
  | next t =>
    obtain ⟨-, next_tick, -⟩ := frames_next rendered
    have ahead : (m + 1) * one ≤ t.nextTick.toNat := next_tick ▸ wholeFrames_mul_le short
    have not_due : ¬ (countDown m t).nextTick.toNat < one := by
      rw [Nat.add_one_mul] at ahead
      rw [countDown_nextTick]
      omega
    rw [andThen_next, andThen_next, tickIfDue_eq, if_neg not_due]

theorem pullTurn_add {a b : Nat} {s : State} (short : a < wholeFrames s) :
    pullTurn (a + b) s = andThen (pullTurn a s) (pullTurn b) := by
  rw [pullTurn_of_short short, pullTurn, frames_add, andThen_assoc, andThen_assoc]
  refine congrArg (andThen (frames a s)) (funext fun t => ?_)
  rw [andThen_next, pullTurn, frames_countDown, andThen_assoc]
  exact congrArg (andThen (frames b t)) (funext fun u => by rw [andThen_next, countDown_add])

theorem wholeFrames_countDown (m : Nat) (s : State) :
    wholeFrames (countDown m s) = wholeFrames s - m := by
  rw [wholeFrames, countDown_nextTick, Nat.mul_comm, Nat.sub_mul_div, wholeFrames]

/-- Where the first of two batches ends short of the next tick, a turn that goes on into the second is cut
in two. -/
theorem pullFrames_add_of_short {a b : Nat} {s : State} (pos : a ≠ 0) (short : a < wholeFrames s) :
    pullFrames (a + b) s = andThen (pullFrames a s) (pullFrames b) := by
  have done : pullFrames (a - a) = .next := by rw [Nat.sub_self, funext pullFrames_zero]
  have first : pullFrames a s = pullTurn a s := by
    rw [pullFrames_turn pos (min_eq_left short.le).symm, done, andThen_done]
  by_cases more : b = 0
  · rw [more, funext pullFrames_zero, andThen_done, Nat.add_zero]
  · have both : a + min b (wholeFrames s - a) = min (a + b) (wholeFrames s) := by omega
    rw [first, pullFrames_turn (by omega) both, pullTurn_add short, andThen_assoc, Nat.add_sub_add_left,
      pullTurn_of_short short, andThen_assoc, andThen_assoc]
    cases rendered : frames a s with
    | fault r => rw [andThen_fault, andThen_fault]
    | refused r => rw [andThen_refused, andThen_refused]
    | next t =>
      obtain ⟨-, next_tick, -⟩ := frames_next rendered
      have whole : wholeFrames s - a = wholeFrames (countDown a t) := by
        rw [wholeFrames_countDown, wholeFrames, wholeFrames, next_tick]
      rw [andThen_next, andThen_next, andThen_next, andThen_next, whole, ← pullFrames_turn more rfl]

theorem pullFrames_add (a b : Nat) (s : State) :
    pullFrames (a + b) s = andThen (pullFrames a s) (pullFrames b) := by
  induction need : pullNeed a s using Nat.strongRecOn generalizing a s with
  | ind k ih =>
    subst need
    by_cases empty : a = 0
    · rw [empty, Nat.zero_add, pullFrames_zero, andThen_next]
    · by_cases short : a < wholeFrames s
      · exact pullFrames_add_of_short empty short
      · have turn_a : wholeFrames s = min a (wholeFrames s) := by omega
        have turn_both : wholeFrames s = min (a + b) (wholeFrames s) := by omega
        have rest : a + b - wholeFrames s = a - wholeFrames s + b := by omega
        rw [pullFrames_turn (by omega) turn_both, pullFrames_turn empty turn_a, andThen_assoc, rest]
        cases turned : pullTurn (wholeFrames s) s with
        | fault r => rw [andThen_fault, andThen_fault]
        | refused r => rw [andThen_refused, andThen_refused]
        | next u =>
          rw [andThen_next, andThen_next]
          exact ih _ (pullNeed_turn empty turn_a turned) _ u rfl

/-- Settles O49: two batches are the same turns, with the turn in which the first ends cut in two. -/
theorem pullIsBatchIndependent : Obligations.PullIsBatchIndependent := by
  intro a b s fits
  have count {k : Nat} (hk : k ≤ a + b) : (BitVec.ofNat 24 k).toNat = k :=
    Nat.mod_eq_of_lt (hk.trans_lt fits)
  rw [exec_pull, exec_pull, funext (exec_pull (BitVec.ofNat 24 b)), count (Nat.le_add_right a b),
    count (Nat.le_add_left b a), count le_rfl, pullFrames_add]

/-! ## No frame, and a stuck clock -/

/-- Settles O48: the loop with no frame left ends at once, and a clock that is stuck is refused as R4's check
of the rates fails. -/
theorem pullZeroAndStuckClock : Obligations.PullZeroAndStuckClock := by
  refine ⟨fun s => ?_, fun cfg stuck => ?_⟩
  · rw [exec_pull]
    exact pullFrames_zero s
  · obtain ⟨accepted, -⟩ | ⟨-, refused⟩ := State.create_cases cfg
    · exact absurd stuck (tickStep_pos ⟨cfg, accepted⟩).ne'
    · exact refused

end Sys2Proof.Machine
end

section
/-! The tick (R164 to R168, R113): what each part of it does and leaves alone, for a host that does nothing
at service points where that matters. -/

namespace Sys2Proof.Machine

open Sys2Proof

/-- Settles O43: the count of ticks apart, a tick is a change within its frame. -/
theorem tickLeavesGeneratorsAlone : Obligations.TickLeavesGeneratorsAlone := by
  intro s t h
  obtain ⟨v, ⟨oscillators, setup, ⟨rng, level, next_tick, out, ticks⟩, port⟩, rfl⟩ := tick_tickFrame h
  exact ⟨oscillators, setup, rng, level, next_tick, out, port, congrArg (· + 1) ticks⟩

/-! ## Activity -/

theorem active_iff (s : State) (c : Fin 4) :
    active s c = true ↔ s.reg (chanSlot c) .timeLeft ≠ 0 :=
  bne_iff_ne

theorem active_eq_false_iff (s : State) (c : Fin 4) :
    active s c = false ↔ s.reg (chanSlot c) .timeLeft = 0 :=
  bne_eq_false_iff_eq

theorem anyActive_iff (s : State) : anyActive s = true ↔ ∃ c, s.reg (chanSlot c) .timeLeft ≠ 0 := by
  simp only [anyActive, Bool.or_eq_true, active_iff]
  constructor
  · rintro (((h | h) | h) | h) <;> exact ⟨_, h⟩
  · rintro ⟨c, h⟩
    obtain rfl | rfl | rfl | rfl : c = 0 ∨ c = 1 ∨ c = 2 ∨ c = 3 := by omega
    · exact .inl (.inl (.inl h))
    · exact .inl (.inl (.inr h))
    · exact .inl (.inr h)
    · exact .inr h

theorem anyActive_eq_false_iff (s : State) :
    anyActive s = false ↔ ∀ c, s.reg (chanSlot c) .timeLeft = 0 := by
  rw [← Bool.not_eq_true, anyActive_iff, not_exists]
  simp only [not_not]

theorem tickChannel_of_active {c : Fin 4} {s : State} (h : s.reg (chanSlot c) .timeLeft ≠ 0) :
    tickChannel c s = chTick c s :=
  if_pos ((active_iff s c).mpr h)

theorem tickChannel_of_inactive {c : Fin 4} {s : State} (h : s.reg (chanSlot c) .timeLeft = 0) :
    tickChannel c s = .next s :=
  if_neg (Bool.eq_false_iff.mp ((active_eq_false_iff s c).mpr h))

theorem tickChannels_of_inactive {s : State} (h : ∀ c, s.reg (chanSlot c) .timeLeft = 0) :
    tickChannels s = .next s := by
  simp only [tickChannels, tickChannel_of_inactive (h _), andThen_next]

/-! ## The end of a tick -/

theorem idleStep_of_idle {s : State} (h : ∀ c, s.reg (chanSlot c) .timeLeft = 0) :
    idleStep true s = serve .idle s := by
  rw [idleStep, (anyActive_eq_false_iff s).mpr h]
  rfl

theorem idleStep_of_busy {was : Bool} {s : State}
    (h : was = false ∨ ∃ c, s.reg (chanSlot c) .timeLeft ≠ 0) : idleStep was s = .next s := by
  obtain rfl | busy := h
  · rfl
  · rw [idleStep, (anyActive_iff s).mpr busy, Bool.not_true, Bool.and_false]
    rfl

/-- Without a host the end of a tick records at most an event. -/
theorem idleStep_silent {was : Bool} {s t : State} (silent : s.answers = [])
    (h : idleStep was s = .next t) : ∃ es, t = { s with events := es } := by
  unfold idleStep at h
  split at h
  · rw [serve_silent silent] at h
    cases h
    exact ⟨_, rfl⟩
  · cases h
    exact ⟨_, rfl⟩

/-! ## The music timer (R168) -/

theorem musicTimerStep_of_reached {s : State}
    (reached : s.ticksPerMusicTimer.toNat ≤ (s.musicCtr.toNat + 1) % 65536) :
    musicTimerStep s = { s with musicCtr := 0, musicTimer := s.musicTimer + 1 } := by
  have le : s.ticksPerMusicTimer ≤ s.musicCtr + 1 := by
    rwa [BitVec.le_def, BitVec.toNat_add]
  exact if_pos le

theorem musicTimerStep_of_below {s : State}
    (below : (s.musicCtr.toNat + 1) % 65536 < s.ticksPerMusicTimer.toNat) :
    musicTimerStep s = { s with musicCtr := s.musicCtr + 1 } := by
  have not_le : ¬ s.ticksPerMusicTimer ≤ s.musicCtr + 1 := by
    rw [BitVec.le_def, BitVec.toNat_add]
    exact not_le.mpr below
  exact if_neg not_le

/-- The step reads and writes the three registers of the timer alone. -/
theorem musicTimerStep_sameMusicTimer {s t : State} (h : SameMusicTimer s t) :
    SameMusicTimer (musicTimerStep s) (musicTimerStep t) := by
  obtain ⟨timer, ctr, period⟩ := h
  by_cases reached : s.ticksPerMusicTimer.toNat ≤ (s.musicCtr.toNat + 1) % 65536
  · rw [musicTimerStep_of_reached reached, musicTimerStep_of_reached (by rwa [ctr, period])]
    exact ⟨congrArg (· + 1) timer, rfl, period⟩
  · rw [not_le] at reached
    rw [musicTimerStep_of_below reached, musicTimerStep_of_below (by rwa [ctr, period])]
    exact ⟨timer, congrArg (· + 1) ctr, period⟩

theorem musicTimerStep_prescaler (s : State) :
    (musicTimerStep s).ticksPerMusicTimer = s.ticksPerMusicTimer := by
  obtain h | h := musicTimerStep_cases s <;> rw [h]

theorem musicTimerStep_ch (s : State) : (musicTimerStep s).ch = s.ch := by
  obtain h | h := musicTimerStep_cases s <;> rw [h]

theorem musicTimerStep_sameHost (s : State) : SameHost s (musicTimerStep s) := by
  obtain h | h := musicTimerStep_cases s <;> rw [h] <;> exact ⟨rfl, rfl, rfl, rfl⟩

/-- Settles O44: no channel takes a turn and `IDLE` is not raised, so the music timer's step is left. -/
theorem tickWithNoActiveChannel : Obligations.TickWithNoActiveChannel := by
  intro s inactive
  have idle : ∀ c, s.reg (chanSlot c) .timeLeft = 0 := fun c =>
    (active_eq_false_iff s c).mp (inactive c)
  have ran : tick s = .next { musicTimerStep s with ticks := (musicTimerStep s).ticks + 1 } := by
    rw [tick, tickChannels_of_inactive idle, andThen_next, (anyActive_eq_false_iff s).mpr idle,
      idleStep_of_busy (.inl rfl), andThen_next]
  obtain ⟨oscillators, setup, ⟨rng, level, next_tick, out, -⟩, -⟩ := musicTimerStep_tickFrame s
  exact ⟨_, ran, State.reg_congr (musicTimerStep_ch s), oscillators, setup, musicTimerStep_sameHost s,
    rng, level, next_tick, out, rfl, rfl, musicTimerStep_prescaler s⟩

/-! ## The duration counter and the service (R166, R167) -/

/-- A duration of 1 expires. -/
theorem durationStep_of_last {c : Fin 4} {s : State} (last : s.reg (chanSlot c) .timeLeft = 1) :
    durationStep c s = serve (.seqReq c) (s.setReg (chanSlot c) .timeLeft 0) := by
  simp only [durationStep, last, State.reg_setReg_self]
  rfl

/-- Any other counts down. -/
theorem durationStep_of_more {c : Fin 4} {s : State} (more : s.reg (chanSlot c) .timeLeft ≠ 1) :
    durationStep c s =
      .next (s.setReg (chanSlot c) .timeLeft (s.reg (chanSlot c) .timeLeft - 1)) := by
  have goes_on : s.reg (chanSlot c) .timeLeft - 1 ≠ 0 := mt sub_eq_zero.mp more
  simp only [durationStep, State.reg_setReg_self, if_neg goes_on]

theorem serve_of_answer {e : Event} {s : State} {a : List CmdWord} {as : List (List CmdWord)}
    (answer : s.answers = a :: as) :
    serve e s =
      serviceWords a { s with events := s.events ++ [⟨s.ticks, e⟩], answers := as } := by
  rw [serve, State.takeEvent_cons e answer]

theorem serviceWords_of_reserved {w : CmdWord} {e : Reserved} (ws : List CmdWord) (s : State)
    (reserved : decode w = .error e) : serviceWords (w :: ws) s = serviceWords ws s := by
  rw [serviceWords, serviceWord, reserved]
  rfl

theorem serviceWords_of_command {w : CmdWord} {i : Instr} (ws : List CmdWord) (s : State)
    (command : decode w = .ok i) :
    serviceWords (w :: ws) s = andThen (serviceCommand i s) (serviceWords ws) := by
  rw [serviceWords, serviceWord, command]

theorem serviceCommand_of_control {i : Instr} (s : State)
    (control : i = .reset ∨ (∃ p, i = .mode p) ∨ (∃ v, i = .setvol v) ∨ ∃ n, i = .pull n) :
    serviceCommand i s = .refused .serviceViolation := by
  obtain rfl | ⟨p, rfl⟩ | ⟨v, rfl⟩ | ⟨n, rfl⟩ := control <;> rfl

theorem allowedInService_of_not_control {i : Instr} (not_reset : i ≠ .reset)
    (not_mode : ∀ p, i ≠ .mode p) (not_setvol : ∀ v, i ≠ .setvol v) (not_pull : ∀ n, i ≠ .pull n) :
    i.allowedInService = true := by
  cases i with
  | nop | wrch | rdch | clrch | wrtpm | rdtmr => rfl
  | reset => exact absurd rfl not_reset
  | mode p => exact absurd rfl (not_mode p)
  | setvol v => exact absurd rfl (not_setvol v)
  | pull n => exact absurd rfl (not_pull n)

/-- The state in which the host is served when the duration of channel `c` has expired. -/
def expired (c : Fin 4) (s : State) : State :=
  { s.setReg (chanSlot c) .timeLeft 0 with
    events := s.events ++ [⟨s.ticks, .seqReq c⟩], answers := s.answers.tail }

/-- Settles O45: the entry of the service by whether an answer is left, its words by what they decode to,
and the counter by whether it is at its last count. -/
theorem durationExpiryRequestsSequencer : Obligations.DurationExpiryRequestsSequencer := by
  refine ⟨?_, fun s => idleStep_of_idle, fun s => rfl, fun w ws s => ⟨fun e => ?_, fun i command =>
    ⟨fun not_reset not_mode not_setvol not_pull => ?_, fun control => ?_⟩⟩, fun c s => ⟨fun more => ?_,
      fun last => ?_⟩⟩
  · rintro e s t rfl
    exact ⟨serve_silent, fun a as => serve_of_answer⟩
  · exact serviceWords_of_reserved ws s
  · have allowed := allowedInService_of_not_control not_reset not_mode not_setvol not_pull
    obtain ⟨t, ran⟩ := onlyPullCanStop i s not_pull
    refine ⟨t, ran, ?_⟩
    rw [serviceWords_of_command ws s command, ← exec_eq_serviceCommand allowed, ran, andThen_next]
  · rw [serviceWords_of_command ws s command, serviceCommand_of_control s control, andThen_refused]
  · obtain ⟨-, -, counted⟩ := toNat_pred_of_two_le more
    have not_last : s.reg (chanSlot c) .timeLeft ≠ 1 := fun h => by
      rw [h] at more
      exact absurd more (by decide)
    exact ⟨_, durationStep_of_more not_last, by rwa [State.reg_setReg_self],
      setReg_changesOnly s _ _ _⟩
  · have expires := durationStep_of_last (BitVec.eq_of_toNat_eq last)
    refine ⟨expired c s, s.reg_setReg_self .., fun sl r other => s.reg_setReg_ne 0 other, ⟨rfl, rfl⟩,
      ⟨rfl, rfl, rfl⟩, ⟨rfl, rfl, rfl⟩, ⟨rfl, rfl, rfl, rfl, rfl⟩, rfl, rfl, rfl, fun silent => ?_,
      fun a as answer => ?_⟩
    · have untouched : s.answers.tail = s.answers := by rw [silent, List.tail_nil]
      refine ⟨congrArg List.tail silent, ?_⟩
      rw [expires, serve_silent (s := s.setReg (chanSlot c) .timeLeft 0) silent, expired, untouched]
      rfl
    · refine ⟨congrArg List.tail answer, ?_⟩
      rw [expires, serve_of_answer (s := s.setReg (chanSlot c) .timeLeft 0) answer, expired, answer]
      rfl

/-! ## A channel's tick without a host (R165, R113) -/

/-- Of the registers only those of `rs` in slot `sl` change, and the music timer, the configuration and the
host's answers are kept. -/
structure SilentChange (sl : Fin 5) (rs : List Reg) (s t : State) : Prop where
  reg : ∀ sl' r, sl' ≠ sl ∨ r ∉ rs → t.reg sl' r = s.reg sl' r
  music : SameMusicTimer s t
  cfg : t.cfg = s.cfg
  answers : t.answers = s.answers

section
variable {sl : Fin 5} {rs : List Reg} {s t : State}

theorem SameMusicTimer.trans {s t u : State} (h : SameMusicTimer s t) (h' : SameMusicTimer t u) :
    SameMusicTimer s u := by
  obtain ⟨timer, ctr, period⟩ := h
  obtain ⟨timer', ctr', period'⟩ := h'
  exact ⟨timer'.trans timer, ctr'.trans ctr, period'.trans period⟩

theorem ChangesOnly.silent (h : ChangesOnly sl rs s t) : SilentChange sl rs s t := by
  obtain ⟨reg, -, music, ⟨inst, -, -⟩, -, -, answers, -, -⟩ := h
  exact ⟨reg, music, by rw [State.cfg, inst], answers⟩

theorem SilentChange.trans {u : State} (h : SilentChange sl rs s t) (h' : SilentChange sl rs t u) :
    SilentChange sl rs s u where
  reg sl' r hr := (h'.reg sl' r hr).trans (h.reg sl' r hr)
  music := h.music.trans h'.music
  cfg := h'.cfg.trans h.cfg
  answers := h'.answers.trans h.answers

theorem SilentChange.mono {rs' : List Reg} (h : SilentChange sl rs s t) (sub : rs ⊆ rs') :
    SilentChange sl rs' s t :=
  ⟨fun sl' r hr => h.reg sl' r (hr.imp_right fun out inside => out (sub inside)), h.music, h.cfg,
    h.answers⟩

theorem ramps_changesOnly (sl : Fin 5) (s : State) :
    ChangesOnly sl [.volume, .baseFreq, .freqmodCursor] s
      (cursorAdvance sl (baseRamp sl (volumeRamp sl s))) :=
  (((ChangesOnly.refl sl _ s).setReg (by decide) _).setReg (by decide) _).setReg (by decide) _

theorem effectiveFreq_next (h : effectiveFreq sl s = .next t) :
    ∃ m : BitVec 8, s.cfg.fm[fmIndex sl s]? = some m ∧ t = s.setReg sl .freq
      (modulated (s.reg sl .baseFreq) m.toInt (s.reg sl .freqmodMult)) := by
  obtain ⟨m, entry, runs⟩ | ⟨-, fault⟩ := effectiveFreq_cases sl s
  · rw [runs] at h; cases h; exact ⟨m, entry, rfl⟩
  · rw [fault] at h; cases h

theorem effectiveFreq_changesOnly (h : effectiveFreq sl s = .next t) : ChangesOnly sl [.freq] s t := by
  obtain ⟨m, -, rfl⟩ := effectiveFreq_next h
  exact setReg_changesOnly s sl .freq _

/-- A counter is at 0, at its last count, or above. -/
theorem count_cases (w : Word) : w.toNat = 0 ∨ w.toNat = 1 ∨ 2 ≤ w.toNat := by
  omega

theorem noteOff_changesOnly (sl : Fin 5) (s : State) :
    ChangesOnly sl [.noteLength, .hullOffset, .hullCounter] s (noteOff sl s) := by
  obtain ⟨none_pending, counting, ending⟩ := noteOffStartsRelease sl s
  obtain zero | last | more := count_cases (s.reg sl .noteLength)
  · rw [none_pending zero]
    exact .refl sl _ s
  · obtain ⟨-, -, -, changes⟩ := ending last
    exact changes
  · obtain ⟨-, changes⟩ := counting more
    exact changes.mono (by decide)

theorem hullEval_changesOnly (h : hullEval sl s = .next t) :
    ChangesOnly sl [.volume, .volumeDelta, .hullOffset, .hullCounter] s t := by
  obtain ⟨fault | ⟨u, k, ended, -, -, -, -, -, changes⟩, -⟩ := hullEvalEndsOrFaults sl s
  · rw [fault] at h; cases h
  · rw [ended] at h; cases h; exact changes

theorem hullStep_changesOnly (h : hullStep sl s = .next t) :
    ChangesOnly sl [.volume, .volumeDelta, .hullOffset, .hullCounter] s t := by
  obtain ⟨parked, waiting, at_last⟩ := hullStepCountsDown sl s
  obtain zero | last | more := count_cases (s.reg sl .hullCounter)
  · rw [parked zero] at h
    cases h
    exact .refl sl _ s
  · rw [at_last last] at h
    exact ((setReg_changesOnly s sl .hullCounter 0).mono (by decide)).trans (hullEval_changesOnly h)
  · obtain ⟨u, counted, -, changes⟩ := waiting more
    rw [counted] at h
    cases h
    exact changes.mono (by decide)

theorem durationStep_silent {c : Fin 4} (silent : s.answers = []) (h : durationStep c s = .next t) :
    SilentChange (chanSlot c) [.timeLeft] s t := by
  by_cases last : s.reg (chanSlot c) .timeLeft = 1
  · have counted := (setReg_changesOnly s (chanSlot c) .timeLeft 0).silent
    rw [durationStep_of_last last, serve_silent (s := s.setReg (chanSlot c) .timeLeft 0) silent] at h
    cases h
    exact ⟨counted.reg, counted.music, counted.cfg, counted.answers⟩
  · rw [durationStep_of_more last] at h
    cases h
    exact (setReg_changesOnly s (chanSlot c) .timeLeft _).silent

/-- The registers that the operations after the effective frequency write: none of R112's operands. -/
def lateWrites : List Reg :=
  [.noteLength, .hullOffset, .hullCounter, .volume, .volumeDelta, .timeLeft]

/-- A channel's tick without a host: up to the effective frequency, and from it. -/
theorem chTick_silent {c : Fin 4} (silent : s.answers = []) (h : chTick c s = .next t) :
    ∃ u v, SilentChange (chanSlot c) [.volume, .baseFreq, .freqmodCursor] s u ∧
      effectiveFreq (chanSlot c) u = .next v ∧ SilentChange (chanSlot c) lateWrites v t := by
  obtain ⟨v, w, modulates, steps, counts⟩ := chTick_next h
  have ramps := (ramps_changesOnly (chanSlot c) s).silent
  have freq := (effectiveFreq_changesOnly modulates).silent
  have release := (noteOff_changesOnly (chanSlot c) v).silent.mono (rs' := lateWrites) (by decide)
  have hull := (hullStep_changesOnly steps).silent.mono (rs' := lateWrites) (by decide)
  have still_silent : w.answers = [] := by
    rw [hull.answers, release.answers, freq.answers, ramps.answers, silent]
  exact ⟨_, v, ramps, modulates,
    (release.trans hull).trans ((durationStep_silent still_silent counts).mono (by decide))⟩

/-- R113: after a channel's tick its `FREQ` is R112's value on the operands as they stand then. -/
theorem chTick_freq {c : Fin 4} (silent : s.answers = []) (h : chTick c s = .next t) :
    ∃ m : BitVec 8, t.cfg.fm[fmIndex (chanSlot c) t]? = some m ∧
      t.reg (chanSlot c) .freq =
        modulated (t.reg (chanSlot c) .baseFreq) m.toInt (t.reg (chanSlot c) .freqmodMult) := by
  obtain ⟨u, v, -, modulates, late⟩ := chTick_silent silent h
  obtain ⟨m, entry, rfl⟩ := effectiveFreq_next modulates
  have freq_written := (effectiveFreq_changesOnly modulates).silent
  have operand {r : Reg} (not_late : r ∉ lateWrites) (not_freq : r ∉ [Reg.freq]) :
      t.reg (chanSlot c) r = u.reg (chanSlot c) r :=
    (late.reg _ r (.inr not_late)).trans (freq_written.reg _ r (.inr not_freq))
  refine ⟨m, ?_, ?_⟩
  · rw [late.cfg, freq_written.cfg, fmIndex, operand (by decide) (by decide),
      operand (by decide) (by decide), ← fmIndex]
    exact entry
  · rw [operand (r := .baseFreq) (by decide) (by decide),
      operand (r := .freqmodMult) (by decide) (by decide), late.reg _ .freq (.inr (by decide)),
      State.reg_setReg_self]

/-! ## The turns of the channels without a host (R164) -/

/-- Turns of channels that no host takes part in: a channel inactive at first keeps its registers. -/
structure SilentTurns (s t : State) : Prop where
  skipped : ∀ c, s.reg (chanSlot c) .timeLeft = 0 →
    ∀ r, t.reg (chanSlot c) r = s.reg (chanSlot c) r
  music : SameMusicTimer s t
  answers : t.answers = s.answers

theorem SilentTurns.refl (s : State) : SilentTurns s s := ⟨fun _ _ _ => rfl, ⟨rfl, rfl, rfl⟩, rfl⟩

theorem SilentTurns.trans {s t u : State} (h : SilentTurns s t) (h' : SilentTurns t u) :
    SilentTurns s u where
  skipped c inactive r :=
    have still : t.reg (chanSlot c) .timeLeft = 0 := (h.skipped c inactive _).trans inactive
    (h'.skipped c still r).trans (h.skipped c inactive r)
  music := h.music.trans h'.music
  answers := h'.answers.trans h.answers

/-- A turn changes its own channel's slot, and that only if the channel is active. -/
theorem tickChannel_silentTurns {c : Fin 4} (silent : s.answers = []) (h : tickChannel c s = .next t) :
    SilentTurns s t := by
  by_cases inactive : s.reg (chanSlot c) .timeLeft = 0
  · rw [tickChannel_of_inactive inactive] at h
    cases h
    exact .refl s
  · rw [tickChannel_of_active inactive] at h
    obtain ⟨u, v, ramps, modulates, late⟩ := chTick_silent silent h
    have freq := (effectiveFreq_changesOnly modulates).silent
    refine ⟨fun d skipped r => ?_, (ramps.music.trans freq.music).trans late.music, ?_⟩
    · have other : chanSlot d ≠ chanSlot c := fun same => inactive (same ▸ skipped)
      rw [late.reg _ r (.inl other), freq.reg _ r (.inl other), ramps.reg _ r (.inl other)]
    · rw [late.answers, freq.answers, ramps.answers]

theorem tickChannels_silentTurns (silent : s.answers = []) (h : tickChannels s = .next t) :
    SilentTurns s t := by
  obtain ⟨a, b, d, turn_0, turn_1, turn_2, turn_3⟩ := tickChannels_next h
  have to_a := tickChannel_silentTurns silent turn_0
  have to_b := to_a.trans (tickChannel_silentTurns (to_a.answers.trans silent) turn_1)
  have to_d := to_b.trans (tickChannel_silentTurns (to_b.answers.trans silent) turn_2)
  exact to_d.trans (tickChannel_silentTurns (to_d.answers.trans silent) turn_3)

/-- A tick without a host: the channels' turns, one step of the music timer, the records. -/
theorem tick_silent (silent : s.answers = []) (h : tick s = .next t) :
    ∃ u, SilentTurns s u ∧ ∃ es n, t = { musicTimerStep u with events := es, ticks := n } := by
  obtain ⟨u, v, turns, ends, rfl⟩ := tick_next h
  have turned := tickChannels_silentTurns silent turns
  obtain ⟨-, answers, -, -⟩ := musicTimerStep_sameHost u
  have still_silent : (musicTimerStep u).answers = [] := by rw [answers, turned.answers, silent]
  obtain ⟨es, rfl⟩ := idleStep_silent still_silent ends
  exact ⟨u, turned, es, _, rfl⟩

end

/-- Settles O22: the step by its two cases, and as the one part of a tick that writes the timer. -/
theorem musicTimerStepsOncePerTick : Obligations.MusicTimerStepsOncePerTick := by
  refine ⟨fun s => ⟨musicTimerStep_of_reached, musicTimerStep_of_below⟩, fun s t silent h => ?_⟩
  obtain ⟨u, turned, es, n, rfl⟩ := tick_silent silent h
  obtain ⟨timer, ctr, period⟩ := musicTimerStep_sameMusicTimer turned.music
  exact ⟨ctr, timer, period.trans (musicTimerStep_prescaler s)⟩

/-- Settles O31: the tick and its loop as they are defined, activity read off `TIME_LEFT`, and without a
host what the turns leave to the channels. -/
theorem channelTickRunsSevenOperations : Obligations.ChannelTickRunsSevenOperations := by
  refine ⟨fun s => ⟨anyActive s, anyActive_iff s, rfl⟩, fun was s => ⟨?_, idleStep_of_busy⟩,
    fun c s => rfl, fun s => rfl, fun c s => ⟨tickChannel_of_active, tickChannel_of_inactive⟩,
    fun c s t silent h inactive r => ?_, fun c s t silent h => ?_⟩
  · rintro rfl
    exact idleStep_of_idle
  · obtain ⟨u, turned, es, n, rfl⟩ := tick_silent silent h
    exact (State.reg_congr (s := u) (musicTimerStep_ch u) _ r).trans (turned.skipped c inactive r)
  · obtain ⟨m, entry, freq⟩ := chTick_freq silent h
    exact ⟨m, entry, by rw [freq, modulated_toNat]⟩

end Sys2Proof.Machine
end

section
/-! A `PULL` right after a reset (R183): registers that are all 0 let no channel sound and none be
active, so that every frame is silent and every tick is idle; such states run through the loop to its end. -/

namespace Sys2Proof.Machine

open Sys2Proof

/-! ## Properties under which a `PULL` runs to its end -/

/-- Where `P` holds, a frame and a tick complete, and they and a write of the divider keep `P`: `KeptByPull`
with the completion. -/
structure RunsUnderPull (P : State → Prop) : Prop where
  frame : ∀ {s}, P s → ∃ t, frameStep s = .next t ∧ P t
  tick : ∀ {s}, P s → ∃ t, tick s = .next t ∧ P t
  divider : ∀ {s} v, P s → P (s.setNextTick v)

section
variable {P : State → Prop} (hP : RunsUnderPull P)
include hP

theorem RunsUnderPull.frames_runs (k : Nat) {s : State} (hs : P s) :
    ∃ t, frames k s = .next t ∧ P t := by
  induction k generalizing s with
  | zero => exact ⟨s, rfl, hs⟩
  | succ k ih =>
    obtain ⟨u, first, hu⟩ := hP.frame hs
    rw [frames, first, andThen_next]
    exact ih hu

theorem RunsUnderPull.tickIfDue_runs {s : State} (hs : P s) : ∃ t, tickIfDue s = .next t ∧ P t := by
  rw [tickIfDue_eq]
  split
  · obtain ⟨u, ticked, hu⟩ := hP.tick hs
    exact ⟨reload u, by rw [ticked, andThen_next], hP.divider _ hu⟩
  · exact ⟨s, rfl, hs⟩

theorem RunsUnderPull.pullTurn_runs (m : Nat) {s : State} (hs : P s) :
    ∃ t, pullTurn m s = .next t ∧ P t := by
  obtain ⟨u, rendered, hu⟩ := hP.frames_runs m hs
  rw [pullTurn, rendered, andThen_next]
  exact hP.tickIfDue_runs (hP.divider _ hu)

theorem RunsUnderPull.pullLoop_runs (fuel left : Nat) {s : State} (hs : P s) :
    ∃ t, pullLoop fuel left s = .next t ∧ P t := by
  induction fuel generalizing left s with
  | zero => exact ⟨s, rfl, hs⟩
  | succ fuel ih =>
    by_cases done : left = 0
    · exact ⟨s, by rw [done, pullLoop_none], hs⟩
    · obtain ⟨u, turned, hu⟩ := hP.pullTurn_runs (min left (wholeFrames s)) hs
      rw [pullLoop_turn done, turned, andThen_next]
      exact ih _ hu

theorem RunsUnderPull.exec_pull_runs (n : BitVec 24) {s : State} (hs : P s) :
    ∃ t, exec (.pull n) s = .next t ∧ P t := by
  rw [exec_pull]
  exact hP.pullLoop_runs _ _ hs

end

/-! ## A silent mix through the filter -/

/-- Silent channels add nothing to `ACC` (R138). -/
theorem tgTurns_acc_of_silent {cs : List (Fin 4)} {x y : State × Int}
    (silent : ∀ c, sounding x.1 c = false) (h : tgTurns cs x = .next y) : y.2 = x.2 := by
  induction cs generalizing x with
  | nil => cases h; rfl
  | cons d cs ih =>
    have drained := drain_changesGenerators d x.1
    rw [tgTurns, tgChannel_of_silent (silent d), andThen_next] at h
    exact ih (x := (drain d x.1, x.2)) (fun c => (drained.sounding_eq c).trans (silent c)) h

theorem mix_acc_of_silent {s : State} {x : State × Int} (silent : ∀ c, sounding s c = false)
    (h : mix s = .next x) : x.2 = 0 := by
  cases hp : s.profile with
  | spk =>
    rw [mix_of_spk hp, spkMix_of_silent silent] at h
    cases h
    rfl
  | tg =>
    have synced := phaseSync_changesGenerators s
    rw [mix_of_tg hp, tgMix_eq_tgTurns] at h
    generalize phaseSync s = u at synced h
    exact tgTurns_acc_of_silent (fun c => (synced.sounding_eq c).trans (silent c)) h

/-- The filter at rest stays at rest, whatever its coefficient. -/
theorem lpfStep_zero_level {s : State} (rest : s.level = 0) : (lpfStep 0 s).level = 0 := by
  rw [lpfStep, State.setLevel_level, rest]
  simp [filtered]

/-- Where no channel sounds, a frame keeps a `LEVEL` of 0. -/
theorem frameStep_level_of_silent {s t : State} (silent : ∀ c, sounding s c = false)
    (rest : s.level = 0) (h : frameStep s = .next t) : t.level = 0 := by
  obtain ⟨⟨u, acc⟩, mixed, rfl⟩ := frameStep_next h
  obtain ⟨level, -⟩ := (mix_changesGenerators mixed).output
  obtain rfl : acc = 0 := mix_acc_of_silent silent mixed
  exact lpfStep_zero_level (level.trans rest)

/-! ## Quiet states -/

/-- Every channel register and `LEVEL` are 0, every frame emitted is silence, and no event was raised. -/
structure Quiet (s : State) : Prop where
  reg : ∀ sl r, s.reg sl r = 0
  level : s.level = 0
  out : ∀ f ∈ s.out, f = ⟨0, 0⟩
  events : s.events = []

theorem quiet_resetOf (inst : Instance) : Quiet (State.resetOf inst) :=
  ⟨State.reg_resetOf inst, rfl, nofun, rfl⟩

section
variable {s : State}

theorem Quiet.sounding_eq_false (hs : Quiet s) (c : Fin 4) : sounding s c = false := by
  simp [sounding, hs.reg]

theorem Quiet.active_eq_false (hs : Quiet s) (c : Fin 4) : active s c = false :=
  (active_eq_false_iff s c).mpr (hs.reg _ _)

theorem Quiet.frameStep_runs (hs : Quiet s) : ∃ t, frameStep s = .next t ∧ Quiet t := by
  obtain ⟨-, completes⟩ := unsetTableFaultsOnlyWhenSounding s
  obtain ⟨t, rendered⟩ := completes hs.sounding_eq_false
  obtain ⟨-, -, frame⟩ := frameStepEmitsOneFrame
  obtain ⟨out, registers, -, -, -, -, -, -, -, events⟩ := frame s t rendered
  have level : t.level = 0 := frameStep_level_of_silent hs.sounding_eq_false hs.level rendered
  refine ⟨t, rendered, fun sl r => (registers sl r).trans (hs.reg sl r), level, fun f emitted => ?_,
    events.trans hs.events⟩
  rw [out, level, List.mem_append, List.mem_singleton] at emitted
  exact emitted.elim (hs.out f) id

theorem Quiet.tick_runs (hs : Quiet s) : ∃ t, tick s = .next t ∧ Quiet t := by
  obtain ⟨t, ticked, registers, -, -, ⟨-, -, -, events⟩, -, level, -, out, -⟩ :=
    tickWithNoActiveChannel s hs.active_eq_false
  exact ⟨t, ticked, fun sl r => (registers sl r).trans (hs.reg sl r), level.trans hs.level,
    out ▸ hs.out, events.trans hs.events⟩

end

theorem quiet_runsUnderPull : RunsUnderPull Quiet where
  frame := Quiet.frameStep_runs
  tick := Quiet.tick_runs
  divider _ hs := ⟨hs.reg, hs.level, hs.out, hs.events⟩

/-- Settles O51: the reset state is quiet and stays so to the end of the `PULL`; the count of its frames is
that of every `PULL` that completes. -/
theorem pullAfterResetIsSilent : Obligations.PullAfterResetIsSilent := by
  intro n inst
  obtain ⟨t, ran, quiet⟩ := quiet_runsUnderPull.exec_pull_runs n (quiet_resetOf inst)
  have emitted := pullFrames_emitted (exec_pull n _ ▸ ran)
  have count : t.out.length = n.toNat := emitted.length.trans (Nat.zero_add _)
  exact ⟨t, ran, List.eq_replicate_iff.mpr ⟨count, quiet.out⟩, quiet.level, quiet.events, quiet.reg⟩

end Sys2Proof.Machine
end

section
/-! The sample words of the test vectors: each is the word that the formats of R60 write its command as. -/

namespace Sys2Proof

/-- Settles O4: each word is the encoding of its command, which the decoder gives back. -/
theorem sampleWordsDecode : Obligations.SampleWordsDecode :=
  ⟨decodeOfEncode .nop, decodeOfEncode .reset, decodeOfEncode (.mode .tg), decodeOfEncode (.setvol 255),
    decodeOfEncode (.wrch 2 2 2711), decodeOfEncode (.rdch 7 5), decodeOfEncode (.clrch 5),
    decodeOfEncode (.wrtpm 2), decodeOfEncode .rdtmr, decodeOfEncode (.pull 187)⟩

end Sys2Proof
end

section
/-! The events of a tick without a host (R166, R167, R194): a channel's turn counts its duration down and
raises `SEQ_REQ` at the last count, and the end of the tick sees what the turns have left. -/

namespace Sys2Proof.Machine

open Sys2Proof

/-- The registers that a channel's tick writes before its duration. -/
def engineRegs : List Reg :=
  [.volume, .volumeDelta, .baseFreq, .freq, .freqmodCursor, .noteLength, .hullOffset, .hullCounter]

/-- A channel's tick is its engines', and then the step of its duration. -/
theorem chTick_engines {c : Fin 4} {s t : State} (h : chTick c s = .next t) :
    ∃ u, ChangesOnly (chanSlot c) engineRegs s u ∧ durationStep c u = .next t := by
  obtain ⟨v, w, modulates, steps, counts⟩ := chTick_next h
  have ramps := (ramps_changesOnly (chanSlot c) s).mono (rs' := engineRegs) (by decide)
  have freq := (effectiveFreq_changesOnly modulates).mono (rs' := engineRegs) (by decide)
  have release := (noteOff_changesOnly (chanSlot c) v).mono (rs' := engineRegs) (by decide)
  have hull := (hullStep_changesOnly steps).mono (rs' := engineRegs) (by decide)
  exact ⟨w, ((ramps.trans freq).trans release).trans hull, counts⟩

/-- From `s` to `t` the durations of the channels of `cs` have each been counted down once, with `SEQ_REQ`
raised, in the list's order, for those at their last count. -/
structure DurationsCounted (cs : List (Fin 4)) (s t : State) : Prop where
  events : t.events = s.events ++
    (cs.filter fun c => s.reg (chanSlot c) .timeLeft == 1).map fun c => ⟨s.ticks, .seqReq c⟩
  counted : ∀ c ∈ cs,
    (t.reg (chanSlot c) .timeLeft).toNat = (s.reg (chanSlot c) .timeLeft).toNat - 1
  kept : ∀ c ∉ cs, t.reg (chanSlot c) .timeLeft = s.reg (chanSlot c) .timeLeft
  ticks : t.ticks = s.ticks
  answers : t.answers = s.answers

section
variable {c : Fin 4} {cs ds : List (Fin 4)} {s t u : State}

theorem DurationsCounted.trans (h : DurationsCounted cs s t) (h' : DurationsCounted ds t u)
    (once : ∀ c ∈ ds, c ∉ cs) : DurationsCounted (cs ++ ds) s u where
  events := by
    have same : (ds.filter fun c => t.reg (chanSlot c) .timeLeft == 1) =
        ds.filter fun c => s.reg (chanSlot c) .timeLeft == 1 :=
      List.filter_congr fun c listed => by rw [h.kept c (once c listed)]
    rw [h'.events, h.events, h.ticks, same, List.filter_append, List.map_append, List.append_assoc]
  counted c listed := by
    obtain early | late := List.mem_append.mp listed
    · rw [h'.kept c fun late => once c late early, h.counted c early]
    · rw [h'.counted c late, h.kept c (once c late)]
  kept c unlisted := by
    rw [List.mem_append, not_or] at unlisted
    obtain ⟨early, late⟩ := unlisted
    rw [h'.kept c late, h.kept c early]
  ticks := h'.ticks.trans h.ticks
  answers := h'.answers.trans h.answers

/-- The engines count no duration down. -/
theorem ChangesOnly.durationsCounted_nil (h : ChangesOnly (chanSlot c) engineRegs s t) :
    DurationsCounted [] s t := by
  obtain ⟨reg, -, -, -, ⟨-, -, -, -, ticks⟩, ⟨-, answers, -, events⟩⟩ := h
  exact ⟨by simpa using events, nofun, fun d _ => reg _ _ (.inr (by decide)), ticks, answers⟩

theorem durationStep_durationsCounted (silent : s.answers = [])
    (running : s.reg (chanSlot c) .timeLeft ≠ 0) (h : durationStep c s = .next t) :
    DurationsCounted [c] s t := by
  have other {d : Fin 4} (v : Word) (unlisted : d ∉ [c]) :
      (s.setReg (chanSlot c) .timeLeft v).reg (chanSlot d) .timeLeft =
        s.reg (chanSlot d) .timeLeft :=
    s.reg_setReg_ne v (.inl fun same => unlisted (by simp [chanSlot_injective same]))
  by_cases last : s.reg (chanSlot c) .timeLeft = 1
  · rw [durationStep_of_last last, serve_silent (s := s.setReg (chanSlot c) .timeLeft 0) silent] at h
    cases h
    refine ⟨by simp [last], fun d listed => ?_, fun d => other 0, rfl, rfl⟩
    obtain rfl := List.mem_singleton.mp listed
    change ((s.setReg (chanSlot d) .timeLeft 0).reg (chanSlot d) .timeLeft).toNat = _
    rw [State.reg_setReg_self, last]
    rfl
  · rw [durationStep_of_more last] at h
    cases h
    refine ⟨by simpa using last, fun d listed => ?_, fun d => other _, rfl, rfl⟩
    obtain rfl := List.mem_singleton.mp listed
    rw [State.reg_setReg_self]
    bv_omega

theorem tickChannel_durationsCounted (silent : s.answers = []) (h : tickChannel c s = .next t) :
    DurationsCounted [c] s t := by
  by_cases inactive : s.reg (chanSlot c) .timeLeft = 0
  · rw [tickChannel_of_inactive inactive] at h
    cases h
    refine ⟨by simp [inactive], fun d listed => ?_, fun _ _ => rfl, rfl, rfl⟩
    obtain rfl := List.mem_singleton.mp listed
    rw [inactive]
    rfl
  · rw [tickChannel_of_active inactive] at h
    obtain ⟨u, engines, counts⟩ := chTick_engines h
    have still_active : u.reg (chanSlot c) .timeLeft ≠ 0 := by rwa [engines.reg_eq (by decide)]
    have to_u := engines.durationsCounted_nil
    exact to_u.trans
      (durationStep_durationsCounted (to_u.answers.trans silent) still_active counts)
      fun _ _ => List.not_mem_nil

theorem tickChannels_durationsCounted (silent : s.answers = []) (h : tickChannels s = .next t) :
    DurationsCounted (List.finRange 4) s t := by
  obtain ⟨a, b, d, turn_0, turn_1, turn_2, turn_3⟩ := tickChannels_next h
  have to_a := tickChannel_durationsCounted silent turn_0
  have to_b := to_a.trans (tickChannel_durationsCounted (to_a.answers.trans silent) turn_1) (by decide)
  have to_d := to_b.trans (tickChannel_durationsCounted (to_b.answers.trans silent) turn_2) (by decide)
  exact to_d.trans (tickChannel_durationsCounted (to_d.answers.trans silent) turn_3) (by decide)

/-- After the turns a channel is inactive iff it had one count left at most. -/
theorem DurationsCounted.inactive_iff (h : DurationsCounted (List.finRange 4) s t) (c : Fin 4) :
    t.reg (chanSlot c) .timeLeft = 0 ↔ (s.reg (chanSlot c) .timeLeft).toNat ≤ 1 := by
  rw [← BitVec.toNat_inj, h.counted c (List.mem_finRange c)]
  exact Nat.sub_eq_zero_iff_le

end

/-- R167: the end of the tick, by whether it began with an active channel and whether one is left. -/
theorem idleStep_silent_events {was : Bool} {s t : State} (silent : s.answers = [])
    (h : idleStep was s = .next t) :
    t.events = s.events ++
      if was = true ∧ ∀ c, s.reg (chanSlot c) .timeLeft = 0 then [⟨s.ticks, .idle⟩] else [] := by
  split
  · next idle =>
    obtain ⟨rfl, nobody⟩ := idle
    rw [idleStep_of_idle nobody, serve_silent silent] at h
    cases h
    rfl
  · next busy =>
    rw [not_and_or, not_forall, Bool.not_eq_true] at busy
    rw [idleStep_of_busy busy] at h
    cases h
    exact (List.append_nil _).symm

/-- Settles O46: the four turns raise the requests in their order, and what they leave of the durations says
whether `IDLE` follows. -/
theorem tickRaisesEventsInOrder : Obligations.TickRaisesEventsInOrder := by
  intro s t silent h
  obtain ⟨u, v, turns, ends, rfl⟩ := tick_next h
  have turned := tickChannels_durationsCounted silent turns
  obtain ⟨-, answers, -, events⟩ := musicTimerStep_sameHost u
  obtain ⟨-, -, ⟨-, -, -, -, ticks⟩, -⟩ := musicTimerStep_tickFrame u
  have ended := idleStep_silent_events (answers.trans (turned.answers.trans silent)) ends
  have began : anyActive s = true ↔ ∃ c, active s c = true := by
    simp only [anyActive_iff, active_iff]
  simp only [State.reg_congr (musicTimerStep_ch u), turned.inactive_iff, began] at ended
  change v.events = _
  rw [ended, events, ticks, turned.ticks, turned.events]

end Sys2Proof.Machine
end

section
/-! What can stop a `PULL` (R190, R196): the frame with no table set, the two ROM bounds of the tick, and a
host that breaks R90. -/

namespace Sys2Proof.Machine

open Sys2Proof

/-! ## The frame -/

theorem tgInput_le (s : State) (c : Fin 4) : tgInput s c ≤ 1023 := by
  rw [tgInput_eq]
  omega

/-- The noise runs at no more than twice a tone's input (R68). -/
theorem noiseInput_le {f f2 : Nat} (le : f2 ≤ 1023) : noiseInput f f2 ≤ 2046 := by
  rw [noiseInput_eq]
  split_ifs <;> omega

/-- The largest frequency input that the bound of R4 on `UPDATE_STEP` covers. -/
def inputBound : Profile → Nat
  | .spk => 65535
  | .tg => 2046

theorem le_inputBound_of_le {f : Nat} (small : f ≤ 2046) (p : Profile) : f ≤ inputBound p := by
  cases p with
  | spk => exact small.trans (by decide)
  | tg => exact small

theorem updateStep_mul_lt (inst : Instance) {p : Profile} {f : Nat} (covered : f ≤ inputBound p) :
    updateStep inst.cfg p * f < 2 ^ 31 := by
  obtain ⟨-, bound⟩ := updateStep_bounds inst p
  cases p with
  | spk => exact bound f covered
  | tg => exact bound f covered

/-- A period of 0 stands for that of an input of 1 (R132). -/
theorem oscPeriod_lt {s : State} {f : Nat} (covered : f ≤ inputBound s.profile) :
    oscPeriod s f < 2 ^ 31 := by
  have unit := updateStep_mul_lt s.inst (le_inputBound_of_le (f := 1) (by decide) s.profile)
  rw [Nat.mul_one] at unit
  unfold oscPeriod
  split
  · exact unit
  · exact updateStep_mul_lt s.inst covered

/-- R190: no period is out of range at a covered input. -/
theorem osc_runs (c : Fin 4) (f : Nat) (vt : Word) (fb : Option Mask) {x : State × Int}
    (covered : f ≤ inputBound x.1.profile) : ∃ y, osc c f vt fb x = .next y := by
  obtain ⟨out_of_range, -⟩ | ⟨-, runs⟩ := osc_cases c f vt fb x
  · exact absurd (oscPeriod_lt covered) (Nat.not_lt.mpr out_of_range)
  · exact ⟨_, runs⟩

theorem tgChannel_of_set (c : Fin 4) {x : State × Int} {tab : VolTab} (set : x.1.volTab = some tab) :
    ∃ y, tgChannel c x = .next y := by
  have entry (d : Fin 4) : volEntry x.1 d = .next tab[volIndex (x.1.reg (chanSlot d) .volume)] :=
    volTabRead_of_set set _
  cases sounds : sounding x.1 c with
  | false => exact ⟨_, tgChannel_of_silent sounds⟩
  | true =>
    by_cases noise : c = 3
    · subst noise
      rw [tgChannel_of_noise sounds, noiseOsc, entry, andThen_next]
      exact osc_runs _ _ _ _ (le_inputBound_of_le (noiseInput_le (tgInput_le x.1 2)) _)
    · rw [tgChannel_of_melodic sounds noise, melodicOsc, entry, andThen_next]
      exact osc_runs _ _ _ _ (le_inputBound_of_le ((tgInput_le x.1 c).trans (by decide)) _)

theorem tgTurns_of_set (cs : List (Fin 4)) {x : State × Int} {tab : VolTab}
    (set : x.1.volTab = some tab) : ∃ y, tgTurns cs x = .next y := by
  induction cs generalizing x with
  | nil => exact ⟨x, rfl⟩
  | cons c cs ih =>
    obtain ⟨y, turn⟩ := tgChannel_of_set c set
    rw [tgTurns, turn, andThen_next]
    exact ih ((tgChannel_changesGenerators turn).volTab.trans set)

theorem spkMix_of_set {s : State} {tab : VolTab} (speaker : s.profile = .spk)
    (set : s.volTab = some tab) : ∃ x, spkMix s = .next x := by
  cases wins : winner s with
  | none => exact ⟨_, spkMix_of_silent ((winner_eq_none_iff s).mp wins)⟩
  | some w =>
    rw [spkMix_of_winner wins, volTabRead_of_set set, andThen_next]
    refine osc_runs _ _ _ _ ?_
    rw [speaker]
    exact Nat.le_of_lt_succ (BitVec.isLt _)

theorem mix_of_set {s : State} {tab : VolTab} (set : s.volTab = some tab) : ∃ x, mix s = .next x := by
  cases hp : s.profile with
  | spk =>
    rw [mix_of_spk hp]
    exact spkMix_of_set hp set
  | tg =>
    rw [mix_of_tg hp, tgMix_eq_tgTurns]
    exact tgTurns_of_set _ ((phaseSync_changesGenerators s).volTab.trans set)

/-- With a table set every frame completes (R132, R212). -/
theorem frameStep_runs {s : State} (set : s.volTab ≠ none) : ∃ t, frameStep s = .next t := by
  obtain ⟨tab, set⟩ := Option.ne_none_iff_exists'.mp set
  obtain ⟨⟨u, acc⟩, mixed⟩ := mix_of_set set
  exact ⟨_, frameStep_of_mix mixed⟩

theorem frameStep_cases (s : State) :
    (∃ t, frameStep s = .next t) ∨ (s.volTab = none ∧ frameStep s = .fault .volTabUnset) := by
  by_cases set : s.volTab = none
  · obtain ⟨faults, completes⟩ := unsetTableFaultsOnlyWhenSounding s
    by_cases sounds : ∃ c, sounding s c = true
    · exact .inr ⟨set, faults set sounds⟩
    · exact .inl (completes fun c => Bool.eq_false_iff.mpr (not_exists.mp sounds c))
  · exact .inl (frameStep_runs set)

/-! ## What a `PULL` keeps of the host's duties -/

/-- What the duties of the host, but for the engines, are stated of: the configuration and the table are
kept, and the answers in hand are only used up, from the front. -/
structure HostFrame (s t : State) : Prop where
  inst : t.inst = s.inst
  volTab : t.volTab = s.volTab
  answers : t.answers <:+ s.answers

theorem HostFrame.of_same {s t : State} (setup : SameSetup s t) (answers : t.answers = s.answers) :
    HostFrame s t := by
  obtain ⟨inst, -, volTab⟩ := setup
  exact ⟨inst, volTab, answers ▸ List.suffix_rfl⟩

theorem HostFrame.refl (s : State) : HostFrame s s := .of_same (.refl s) rfl

theorem HostFrame.trans {s t u : State} (h : HostFrame s t) (h' : HostFrame t u) : HostFrame s u where
  inst := h'.inst.trans h.inst
  volTab := h'.volTab.trans h.volTab
  answers := h'.answers.trans h.answers

theorem ChangesOnly.hostFrame {sl : Fin 5} {rs : List Reg} {s t : State} (h : ChangesOnly sl rs s t) :
    HostFrame s t := by
  obtain ⟨-, -, -, setup, -, -, answers, -⟩ := h
  exact .of_same setup answers

theorem serve_hostFrame {e : Event} {s t : State} (h : serve e s = .next t) : HostFrame s t := by
  obtain ⟨-, -, -, ⟨inst, -, volTab⟩, -, -, answers, -⟩ := serve_next h
  exact ⟨inst, volTab, answers ▸ List.tail_suffix _⟩

theorem hostFrame_closedUnderPull : ClosedUnderPull HostFrame where
  refl := .refl
  trans := .trans
  oscillators _ _ _ _ := .of_same ⟨rfl, rfl, rfl⟩ rfl
  frameOut _ := .of_same ⟨rfl, rfl, rfl⟩ rfl
  engineReg s c r v _ := (setReg_changesOnly s (chanSlot c) r v).hostFrame
  service := serve_hostFrame
  music s := by
    obtain ⟨-, answers, -⟩ := musicTimerStep_sameHost s
    exact .of_same (musicTimerStep_sameSetup s) answers
  tickCount _ _ := .of_same ⟨rfl, rfl, rfl⟩ rfl
  divider _ _ := .of_same ⟨rfl, rfl, rfl⟩ rfl

theorem hostObeys_iff (s : State) :
    hostObeys s = true ↔ ∀ a ∈ s.answers, a.all serviceWordAllowed = true :=
  List.all_eq_true

theorem HostFrame.hostObeys {s t : State} (h : HostFrame s t) (obeys : hostObeys s = true) :
    hostObeys t = true := by
  rw [hostObeys_iff] at obeys ⊢
  exact fun a left => obeys a (h.answers.subset left)

/-! ## The stops that a state leaves open -/

/-- An outcome that stops, if it does, at a bound of a ROM, at a table that `s` has not set, or at a host
that breaks R90 in `s`. -/
def StopFits (s : State) : Res State → Prop
  | .next _ => True
  | .fault r => r = .hullBounds ∨ r = .fmBounds ∨ r = .volTabUnset ∧ s.volTab = none
  | .refused _ => hostObeys s = false

section
variable {s t : State} {o : Res State}

theorem stopFits_of_next (h : o = .next t) : StopFits s o := h ▸ trivial

theorem HostFrame.stopFits (h : HostFrame s t) (stop : StopFits t o) : StopFits s o := by
  cases o with
  | next u => trivial
  | fault r =>
    unfold StopFits at stop ⊢
    rwa [h.volTab] at stop
  | refused r => exact Bool.eq_false_iff.mpr fun obeys => Bool.eq_false_iff.mp stop (h.hostObeys obeys)

/-- A sequence stops where a part of it does, and each part has the host's duties kept by those before. -/
theorem StopFits.andThen {f : State → Res State} (first : StopFits s o)
    (rest : ∀ t, o = .next t → HostFrame s t ∧ StopFits t (f t)) :
    StopFits s (Machine.andThen o f) := by
  cases o with
  | next t =>
    obtain ⟨kept, stop⟩ := rest t rfl
    exact kept.stopFits stop
  | fault r => exact first
  | refused r => exact first

/-! ## The tick -/

theorem effectiveFreq_stopFits (sl : Fin 5) (s : State) : StopFits s (effectiveFreq sl s) := by
  obtain ⟨b, -, runs⟩ | ⟨-, faults⟩ := effectiveFreq_cases sl s
  · exact stopFits_of_next runs
  · rw [faults]
    exact .inr (.inl rfl)

theorem hullEval_stopFits (sl : Fin 5) (s : State) : StopFits s (hullEval sl s) := by
  obtain faults | ⟨t, k, runs, -⟩ := hullLoop_outcome sl 16384 s
  · rw [hullEval, faults]
    exact .inl rfl
  · exact stopFits_of_next runs

theorem hullStep_stopFits (sl : Fin 5) (s : State) : StopFits s (hullStep sl s) := by
  obtain ⟨parked, waiting, at_last⟩ := hullStepCountsDown sl s
  obtain zero | last | more := count_cases (s.reg sl .hullCounter)
  · exact stopFits_of_next (parked zero)
  · rw [at_last last]
    exact (setReg_changesOnly s sl .hullCounter 0).hostFrame.stopFits (hullEval_stopFits sl _)
  · obtain ⟨t, runs, -⟩ := waiting more
    exact stopFits_of_next runs

/-- A host that keeps to R90 is served (U13). -/
theorem serve_runs_of_obeys (e : Event) (obeys : hostObeys s = true) : ∃ t, serve e s = .next t := by
  rw [hostObeys_iff] at obeys
  cases answers : s.answers with
  | nil => exact ⟨_, serve_silent answers⟩
  | cons a as =>
    rw [serve_of_answer answers]
    obtain ⟨t, runs, -⟩ | ⟨-, breaks⟩ := serviceWords_cases a
      { s with events := s.events ++ [⟨s.ticks, e⟩], answers := as }
    · exact ⟨t, runs⟩
    · have allowed := obeys a (answers ▸ List.mem_cons_self)
      rw [allowed] at breaks
      cases breaks

theorem serve_stopFits (e : Event) (s : State) : StopFits s (serve e s) := by
  cases obeys : hostObeys s with
  | true =>
    obtain ⟨t, runs⟩ := serve_runs_of_obeys e obeys
    exact stopFits_of_next runs
  | false =>
    obtain ⟨t, runs, -⟩ | ⟨refused, -⟩ := serviceWords_cases (s.takeEvent e).1 (s.takeEvent e).2
    · exact stopFits_of_next runs
    · rw [serve, refused]
      exact obeys

theorem durationStep_stopFits (c : Fin 4) (s : State) : StopFits s (durationStep c s) := by
  by_cases last : s.reg (chanSlot c) .timeLeft = 1
  · rw [durationStep_of_last last]
    exact (setReg_changesOnly s (chanSlot c) .timeLeft 0).hostFrame.stopFits (serve_stopFits _ _)
  · exact stopFits_of_next (durationStep_of_more last)

theorem chTick_stopFits (c : Fin 4) (s : State) : StopFits s (chTick c s) := by
  refine (ramps_changesOnly (chanSlot c) s).hostFrame.stopFits ?_
  refine (effectiveFreq_stopFits _ _).andThen fun u modulates =>
    ⟨(effectiveFreq_changesOnly modulates).hostFrame, ?_⟩
  refine ((noteOff_changesOnly (chanSlot c) u).hostFrame.stopFits (hullStep_stopFits _ _)).andThen
    fun v steps => ⟨?_, durationStep_stopFits c v⟩
  exact (noteOff_changesOnly (chanSlot c) u).hostFrame.trans (hullStep_changesOnly steps).hostFrame

theorem tickChannel_stopFits (c : Fin 4) (s : State) : StopFits s (tickChannel c s) := by
  by_cases inactive : s.reg (chanSlot c) .timeLeft = 0
  · exact stopFits_of_next (tickChannel_of_inactive inactive)
  · rw [tickChannel_of_active inactive]
    exact chTick_stopFits c s

theorem tickChannels_stopFits (s : State) : StopFits s (tickChannels s) :=
  have kept {c : Fin 4} {s t : State} (h : tickChannel c s = .next t) : HostFrame s t :=
    hostFrame_closedUnderPull.tickChannel_rel h
  (tickChannel_stopFits 0 s).andThen fun _ turn_0 => ⟨kept turn_0,
    (tickChannel_stopFits 1 _).andThen fun _ turn_1 => ⟨kept turn_1,
      (tickChannel_stopFits 2 _).andThen fun _ turn_2 => ⟨kept turn_2, tickChannel_stopFits 3 _⟩⟩⟩

theorem idleStep_stopFits (was : Bool) (s : State) : StopFits s (idleStep was s) := by
  unfold idleStep
  split
  · exact serve_stopFits .idle s
  · trivial

theorem tick_stopFits (s : State) : StopFits s (tick s) := by
  refine (tickChannels_stopFits s).andThen fun u turns =>
    ⟨hostFrame_closedUnderPull.tickChannels_rel turns, ?_⟩
  have music : HostFrame u (musicTimerStep u) := hostFrame_closedUnderPull.music u
  exact (music.stopFits (idleStep_stopFits _ _)).andThen fun v ends =>
    ⟨music.trans (hostFrame_closedUnderPull.idleStep_rel ends), trivial⟩

/-! ## `PULL` -/

theorem frameStep_stopFits (s : State) : StopFits s (frameStep s) := by
  obtain ⟨t, runs⟩ | ⟨unset, faults⟩ := frameStep_cases s
  · exact stopFits_of_next runs
  · rw [faults]
    exact .inr (.inr ⟨rfl, unset⟩)

theorem frames_stopFits (k : Nat) (s : State) : StopFits s (frames k s) := by
  induction k generalizing s with
  | zero => trivial
  | succ k ih =>
    exact (frameStep_stopFits s).andThen fun t first =>
      ⟨hostFrame_closedUnderPull.frameStep_rel first, ih t⟩

theorem tickIfDue_stopFits (s : State) : StopFits s (tickIfDue s) := by
  rw [tickIfDue_eq]
  split
  · exact (tick_stopFits s).andThen fun t ticked =>
      ⟨hostFrame_closedUnderPull.tick_rel ticked, trivial⟩
  · trivial

theorem pullTurn_stopFits (m : Nat) (s : State) : StopFits s (pullTurn m s) :=
  (frames_stopFits m s).andThen fun t rendered =>
    ⟨hostFrame_closedUnderPull.frames_rel rendered,
      (hostFrame_closedUnderPull.divider t _).stopFits (tickIfDue_stopFits _)⟩

theorem pullTurn_hostFrame {m : Nat} (h : pullTurn m s = .next t) : HostFrame s t := by
  obtain ⟨u, rendered, due⟩ := andThen_eq_next.mp h
  exact (hostFrame_closedUnderPull.frames_rel rendered).trans <|
    (hostFrame_closedUnderPull.divider u _).trans (hostFrame_closedUnderPull.tickIfDue_rel due)

theorem pullLoop_stopFits (fuel left : Nat) (s : State) : StopFits s (pullLoop fuel left s) := by
  induction fuel generalizing left s with
  | zero => trivial
  | succ fuel ih =>
    by_cases done : left = 0
    · rw [done, pullLoop_none]
      trivial
    · rw [pullLoop_turn done]
      exact (pullTurn_stopFits _ s).andThen fun t turned => ⟨pullTurn_hostFrame turned, ih _ t⟩

theorem exec_stopFits (i : Instr) (s : State) : StopFits s (exec i s) := by
  by_cases pull : ∃ n, i = .pull n
  · obtain ⟨n, rfl⟩ := pull
    rw [exec_pull]
    exact pullLoop_stopFits _ _ s
  · obtain ⟨t, runs⟩ := onlyPullCanStop i s (not_exists.mp pull)
    exact stopFits_of_next runs

end

/-- Settles O59: the two faults are none of those that a state leaves open, and the other two stops are open
only without a table and with a host that breaks R90. -/
theorem stopsAreExcluded : Obligations.StopsAreExcluded := by
  intro i s
  have stop := exec_stopFits i s
  refine ⟨fun stuck => ?_, fun range => ?_, fun set unset => ?_, fun obeys r refused => ?_⟩
  · rw [stuck] at stop
    obtain h | h | ⟨h, -⟩ := stop <;> cases h
  · rw [range] at stop
    obtain h | h | ⟨h, -⟩ := stop <;> cases h
  · rw [unset] at stop
    obtain h | h | ⟨-, no_table⟩ := stop
    · cases h
    · cases h
    · exact set no_table
  · rw [refused] at stop
    exact Bool.eq_false_iff.mp stop obeys

end Sys2Proof.Machine
end

section
/-! A `PULL` in a state that meets the host's duties (R196, R212, R216, R224): frames complete with a table
set, ticks with engines on well-formed curves and a host that keeps to R90, and the duties stay met. -/

namespace Sys2Proof.Machine

open Sys2Proof

/-! ## The three parts of the engines' safety -/

/-- The most that the cursor can add to the modulation table's base, after any number of advances (R111). -/
def cursorReach (cursor incr modulo : Word) : Nat :=
  if modulo ≠ 0 then (modulo.toNat - 1) / 16 else if incr = 0 then cursor.toNat / 16 else 4095

/-- The envelope of slot `sl` comes from its cursor to a park pair. -/
def Parks (s : State) (sl : Fin 5) : Prop :=
  parksFrom s.cfg.hull (s.reg sl .hullCurve).toNat (s.reg sl .hullOffset).toNat

/-- A running envelope parks. -/
def EnvelopeSafe (s : State) (sl : Fin 5) : Prop := s.reg sl .hullCounter ≠ 0 → Parks s sl

/-- The release that a pending note-off starts (R102), at byte offset 16, parks. -/
def ReleaseSafe (s : State) (sl : Fin 5) : Prop :=
  s.reg sl .noteLength ≠ 0 → parksFrom s.cfg.hull (s.reg sl .hullCurve).toNat 16

/-- Every entry that the modulation cursor can come to lies in the `FM` ROM. -/
def ModulationSafe (s : State) (sl : Fin 5) : Prop :=
  (s.reg sl .freqmodTable).toNat + cursorReach (s.reg sl .freqmodCursor) (s.reg sl .freqmodIncr)
    (s.reg sl .freqmodModulo) < s.cfg.fm.length

theorem enginesSafe_iff (s : State) (c : Fin 4) :
    EnginesSafe s c ↔ EnvelopeSafe s (chanSlot c) ∧ ReleaseSafe s (chanSlot c) ∧
      ModulationSafe s (chanSlot c) := Iff.rfl

/-- The safety of a channel's engines is a matter of its registers and the ROMs. -/
theorem EnginesSafe.of_same {s t : State} {c : Fin 4} (inst : t.inst = s.inst)
    (reg : ∀ r, t.reg (chanSlot c) r = s.reg (chanSlot c) r) (safe : EnginesSafe s c) :
    EnginesSafe t c := by
  simpa only [EnginesSafe, State.cfg, inst, reg] using safe

section
variable {sl : Fin 5} {rs : List Reg} {s t : State}

theorem ChangesOnly.parks (h : ChangesOnly sl rs s t) (unread : ∀ r ∈ [Reg.hullCurve, .hullOffset], r ∉ rs)
    (parks : Parks s sl) : Parks t sl := by
  unfold Parks at parks ⊢
  rwa [h.cfg_eq, h.reg_eq (unread .hullCurve (by decide)), h.reg_eq (unread .hullOffset (by decide))]

theorem ChangesOnly.envelopeSafe (h : ChangesOnly sl rs s t)
    (unread : ∀ r ∈ [Reg.hullCurve, .hullOffset], r ∉ rs) (unstarted : .hullCounter ∉ rs)
    (safe : EnvelopeSafe s sl) : EnvelopeSafe t sl := fun running =>
  h.parks unread (safe (h.reg_eq unstarted ▸ running))

theorem ChangesOnly.releaseSafe (h : ChangesOnly sl rs s t)
    (unread : ∀ r ∈ [Reg.hullCurve, .noteLength], r ∉ rs) (safe : ReleaseSafe s sl) :
    ReleaseSafe t sl := by
  unfold ReleaseSafe at safe ⊢
  rwa [h.cfg_eq, h.reg_eq (unread .hullCurve (by decide)), h.reg_eq (unread .noteLength (by decide))]

theorem ChangesOnly.modulationSafe (h : ChangesOnly sl rs s t)
    (unread : ∀ r ∈ [Reg.freqmodTable, .freqmodCursor, .freqmodIncr, .freqmodModulo], r ∉ rs)
    (safe : ModulationSafe s sl) : ModulationSafe t sl := by
  unfold ModulationSafe at safe ⊢
  rwa [h.cfg_eq, h.reg_eq (unread .freqmodTable (by decide)),
    h.reg_eq (unread .freqmodCursor (by decide)), h.reg_eq (unread .freqmodIncr (by decide)),
    h.reg_eq (unread .freqmodModulo (by decide))]

end

/-! ## The modulation cursor -/

/-- R111: without an increment and a modulo the cursor stands still. -/
theorem nextCursor_zero_zero (cursor : Word) : nextCursor cursor 0 0 = cursor := by
  rw [nextCursor, if_pos rfl]
  exact (BitVec.ofNat_toNat 16 cursor).trans (BitVec.setWidth_eq cursor)

theorem nextCursor_div_le_reach (cursor incr modulo : Word) :
    (nextCursor cursor incr modulo).toNat / 16 ≤ cursorReach cursor incr modulo := by
  unfold cursorReach
  split_ifs with bounded still
  · have nonzero : modulo.toNat ≠ 0 := fun h => bounded (BitVec.eq_of_toNat_eq h)
    rw [nextCursor_toNat, if_neg nonzero]
    have below := Nat.mod_lt (cursor.toNat + incr.toNat) (Nat.pos_of_ne_zero nonzero)
    exact Nat.div_le_div_right (Nat.le_sub_one_of_lt below)
  · rw [not_not.mp bounded, still, nextCursor_zero_zero]
  · omega

/-- An advance does not move the reach: the cursor counts in it only where it stands still. -/
theorem cursorReach_nextCursor (cursor incr modulo : Word) :
    cursorReach (nextCursor cursor incr modulo) incr modulo = cursorReach cursor incr modulo := by
  unfold cursorReach
  split_ifs with bounded still
  · rfl
  · rw [not_not.mp bounded, still, nextCursor_zero_zero]
  · rfl

section
variable {sl : Fin 5} {s : State}

/-- R112, R224: the entry under the advanced cursor lies in the ROM. -/
theorem ModulationSafe.fmIndex_cursorAdvance_lt (safe : ModulationSafe s sl) :
    fmIndex sl (cursorAdvance sl s) < (cursorAdvance sl s).cfg.fm.length := by
  have changes := setReg_changesOnly s sl .freqmodCursor
    (nextCursor (s.reg sl .freqmodCursor) (s.reg sl .freqmodIncr) (s.reg sl .freqmodModulo))
  rw [cursorAdvance, fmIndex, changes.cfg_eq, changes.reg_eq (r := .freqmodTable) (by decide),
    State.reg_setReg_self]
  exact (Nat.add_le_add_left (nextCursor_div_le_reach _ _ _) _).trans_lt safe

theorem ModulationSafe.cursorAdvance (safe : ModulationSafe s sl) :
    ModulationSafe (cursorAdvance sl s) sl := by
  have changes := setReg_changesOnly s sl .freqmodCursor
    (nextCursor (s.reg sl .freqmodCursor) (s.reg sl .freqmodIncr) (s.reg sl .freqmodModulo))
  rw [Machine.cursorAdvance, ModulationSafe, changes.cfg_eq,
    changes.reg_eq (r := .freqmodTable) (by decide), State.reg_setReg_self,
    changes.reg_eq (r := .freqmodIncr) (by decide), changes.reg_eq (r := .freqmodModulo) (by decide),
    cursorReach_nextCursor]
  exact safe

theorem volumeAndBaseRamp_changesOnly (sl : Fin 5) (s : State) :
    ChangesOnly sl [.volume, .baseFreq] s (baseRamp sl (volumeRamp sl s)) :=
  ((ChangesOnly.refl sl _ s).setReg (by decide) _).setReg (by decide) _

end

/-! ## The walk to a park pair -/

/-- The walk of slot `sl` has the park pair `k` pairs ahead of its cursor. -/
structure ParksIn (sl : Fin 5) (k : Nat) (s : State) : Prop where
  room : (s.reg sl .hullOffset).toNat + 4 * (k + 1) ≤ 65535
  park : s.cfg.hull[hullIndex sl s + 2 * k + 1]? = some 0

theorem parks_iff (s : State) (sl : Fin 5) : Parks s sl ↔ ∃ k, ParksIn sl k s :=
  exists_congr fun _ => ⟨fun ⟨room, park⟩ => ⟨room, park⟩, fun ⟨room, park⟩ => ⟨room, park⟩⟩

section
variable {sl : Fin 5} {s t : State} {k : Nat}

/-- Every pair up to the park pair lies in the ROM. -/
theorem ParksIn.pairAt (h : ParksIn sl k s) : ∃ a b, PairAt sl s a b := by
  obtain ⟨inside, -⟩ := List.getElem?_eq_some_iff.mp h.park
  have room := h.room
  exact ⟨_, _, List.getElem?_eq_getElem (by omega), List.getElem?_eq_getElem (by omega), by omega⟩

theorem ParksIn.pair_eq_zero (h : ParksIn sl 0 s) {a b : Word} (pair : PairAt sl s a b) : b = 0 :=
  Option.some.inj (pair.second.symm.trans h.park)

theorem ParksIn.of_pairTaken (h : ParksIn sl (k + 1) s) (taken : PairsTaken sl 1 s t) :
    ParksIn sl k t where
  room := by
    have room := h.room
    rw [taken.cursor]
    omega
  park := by
    rw [taken.changes.cfg_eq, taken.index, ← h.park]
    congr 1
    omega

/-- R105: the walk ends, at the park pair with the engine parked or at a ramp pair before it. -/
theorem ParksIn.hullEval_runs (h : ParksIn sl k s) :
    ∃ t, hullEval sl s = .next t ∧ EnvelopeSafe t sl := by
  induction k generalizing s with
  | zero =>
    obtain ⟨a, b, pair⟩ := h.pairAt
    obtain rfl : b = 0 := h.pair_eq_zero pair
    exact ⟨_, hullEval_of_ramp pair (by decide), fun running =>
      absurd (rampPair_hullCounter sl a 0 _) running⟩
  | succ k ih =>
    obtain ⟨a, b, pair⟩ := h.pairAt
    by_cases hold : b = 0xFFFF
    · subst hold
      rw [hullEval_of_hold pair]
      exact ih (h.of_pairTaken (holdPair_pairsTaken pair))
    · exact ⟨_, hullEval_of_ramp pair hold, fun _ =>
        (parks_iff _ sl).mpr ⟨k, h.of_pairTaken (rampPair_pairsTaken pair)⟩⟩

end

/-! ## The engines of a channel -/

theorem ne_zero_of_toNat_eq_one {w : Word} (last : w.toNat = 1) : w ≠ 0 := by
  rintro rfl
  cases last

section
variable {c : Fin 4} {s : State}

theorem EnginesSafe.ramps (safe : EnginesSafe s c) :
    EnginesSafe (cursorAdvance (chanSlot c) (baseRamp (chanSlot c) (volumeRamp (chanSlot c) s))) c := by
  obtain ⟨envelope, release, modulation⟩ := (enginesSafe_iff s c).mp safe
  have changes := ramps_changesOnly (chanSlot c) s
  have modulation' := (volumeAndBaseRamp_changesOnly (chanSlot c) s).modulationSafe (by decide) modulation
  exact ⟨changes.envelopeSafe (by decide) (by decide) envelope, changes.releaseSafe (by decide) release,
    modulation'.cursorAdvance⟩

theorem EnginesSafe.effectiveFreq_runs (safe : EnginesSafe s c) :
    ∃ t, effectiveFreq (chanSlot c)
      (cursorAdvance (chanSlot c) (baseRamp (chanSlot c) (volumeRamp (chanSlot c) s))) = .next t := by
  obtain ⟨-, -, modulation⟩ := (enginesSafe_iff s c).mp safe
  have modulation' := (volumeAndBaseRamp_changesOnly (chanSlot c) s).modulationSafe (by decide) modulation
  exact ⟨_, effectiveFreq_of_entry (List.getElem?_eq_getElem modulation'.fmIndex_cursorAdvance_lt)⟩

/-- A change that the safety does not read. -/
theorem EnginesSafe.of_changesOnly {rs : List Reg} {t : State} (safe : EnginesSafe s c)
    (changes : ChangesOnly (chanSlot c) rs s t) (unread : ∀ r ∈ [Reg.hullCurve, .hullOffset, .hullCounter,
      .noteLength, .freqmodTable, .freqmodCursor, .freqmodIncr, .freqmodModulo], r ∉ rs) :
    EnginesSafe t c := by
  obtain ⟨envelope, release, modulation⟩ := (enginesSafe_iff s c).mp safe
  simp only [List.forall_mem_cons] at unread
  obtain ⟨curve, offset, counter, length, table, cursor, incr, modulo, -⟩ := unread
  exact ⟨changes.envelopeSafe (by simp [curve, offset]) counter envelope,
    changes.releaseSafe (by simp [curve, length]) release,
    changes.modulationSafe (by simp [table, cursor, incr, modulo]) modulation⟩

/-- R102: a note-off starts the envelope at the release, which parks as the note pending said. -/
theorem EnginesSafe.noteOff (safe : EnginesSafe s c) : EnginesSafe (noteOff (chanSlot c) s) c := by
  obtain ⟨envelope, release, modulation⟩ := (enginesSafe_iff s c).mp safe
  have modulation' := (noteOff_changesOnly (chanSlot c) s).modulationSafe (by decide) modulation
  obtain zero | last | more := count_cases (s.reg (chanSlot c) .noteLength)
  · rwa [noteOff_of_none (BitVec.eq_of_toNat_eq zero)]
  · obtain ⟨-, -, ending⟩ := noteOffStartsRelease (chanSlot c) s
    obtain ⟨ended, at_release, -, changes⟩ := ending last
    have pending := ne_zero_of_toNat_eq_one last
    refine ⟨fun _ => ?_, fun still => absurd ended still, modulation'⟩
    rw [at_release, changes.cfg_eq, changes.reg_eq (by decide)]
    exact release pending
  · obtain ⟨pending, -⟩ := toNat_pred_of_two_le more
    obtain ⟨-, counting, -⟩ := noteOffStartsRelease (chanSlot c) s
    obtain ⟨-, changes⟩ := counting more
    refine ⟨changes.envelopeSafe (by decide) (by decide) envelope, fun _ => ?_, modulation'⟩
    rw [changes.cfg_eq, changes.reg_eq (by decide)]
    exact release pending

theorem EnvelopeSafe.hullStep_runs {sl : Fin 5} (safe : EnvelopeSafe s sl) :
    ∃ t, hullStep sl s = .next t ∧ EnvelopeSafe t sl := by
  obtain ⟨parked, waiting, at_last⟩ := hullStepCountsDown sl s
  obtain zero | last | more := count_cases (s.reg sl .hullCounter)
  · exact ⟨s, parked zero, safe⟩
  · have running := ne_zero_of_toNat_eq_one last
    have parks := (setReg_changesOnly s sl .hullCounter 0).parks (by decide) (safe running)
    obtain ⟨k, parks_in⟩ := (parks_iff _ sl).mp parks
    rw [at_last last]
    exact parks_in.hullEval_runs
  · obtain ⟨t, runs, -, changes⟩ := waiting more
    obtain ⟨running, -⟩ := toNat_pred_of_two_le more
    exact ⟨t, runs, fun _ => changes.parks (by decide) (safe running)⟩

theorem EnginesSafe.hullStep_runs (safe : EnginesSafe s c) :
    ∃ t, hullStep (chanSlot c) s = .next t ∧ EnginesSafe t c := by
  obtain ⟨envelope, release, modulation⟩ := (enginesSafe_iff s c).mp safe
  obtain ⟨t, runs, envelope'⟩ := envelope.hullStep_runs
  have changes := hullStep_changesOnly runs
  exact ⟨t, runs, envelope', changes.releaseSafe (by decide) release,
    changes.modulationSafe (by decide) modulation⟩

end

/-! ## States that meet the duties -/

theorem HostFrame.answersKeepCurves {s t : State} (h : HostFrame s t) (keep : AnswersKeepCurves s) :
    AnswersKeepCurves t := fun a left u v same =>
  keep a (h.answers.subset left) u v (same.trans h.inst)

/-- Of the duties only the engines' can be lost within a `PULL`. -/
theorem PullReady.of_hostFrame {s t : State} (ready : PullReady s) (kept : HostFrame s t)
    (engines : ∀ c, EnginesSafe t c) : PullReady t := by
  obtain ⟨set, obeys, keep, -⟩ := ready
  exact ⟨kept.volTab ▸ set, kept.hostObeys obeys, kept.answersKeepCurves keep, engines⟩

section
variable {s t : State}

theorem PullReady.enginesSafe (ready : PullReady s) (c : Fin 4) : EnginesSafe s c := by
  obtain ⟨-, -, -, engines⟩ := ready
  exact engines c

theorem PullReady.of_sameRegisters (ready : PullReady s) (kept : HostFrame s t)
    (registers : SameRegisters s t) : PullReady t :=
  ready.of_hostFrame kept fun c => (ready.enginesSafe c).of_same kept.inst (registers _)

/-- A change in one channel's slot can endanger that channel's engines alone. -/
theorem PullReady.of_changesOnly {c : Fin 4} {rs : List Reg} (ready : PullReady s)
    (changes : ChangesOnly (chanSlot c) rs s t) (own : EnginesSafe t c) : PullReady t := by
  refine ready.of_hostFrame changes.hostFrame fun d => ?_
  by_cases same : d = c
  · exact same ▸ own
  · have ⟨others, _⟩ := changes
    exact (ready.enginesSafe d).of_same changes.hostFrame.inst fun r =>
      others _ r (.inl fun h => same (chanSlot_injective h))

/-! ## The tick -/

/-- R90, R224: an answer is served, and leaves the engines on well-formed curves. -/
theorem PullReady.serve_runs (ready : PullReady s) (e : Event) :
    ∃ t, serve e s = .next t ∧ PullReady t := by
  have ⟨_, obeys, keep, engines⟩ := ready
  obtain ⟨t, served⟩ := serve_runs_of_obeys e obeys
  refine ⟨t, served, ready.of_hostFrame (serve_hostFrame served) ?_⟩
  cases answers : s.answers with
  | nil =>
    rw [serve_silent answers] at served
    cases served
    exact fun c => (engines c).of_same rfl fun _ => rfl
  | cons a as =>
    rw [serve_of_answer answers] at served
    refine keep a (answers ▸ List.mem_cons_self) _ t ?_ ?_ served
    · rfl
    · exact fun c => (engines c).of_same rfl fun _ => rfl

theorem PullReady.durationStep_runs (ready : PullReady s) (c : Fin 4) :
    ∃ t, durationStep c s = .next t ∧ PullReady t := by
  have counted (v : Word) : PullReady (s.setReg (chanSlot c) .timeLeft v) :=
    have changes := setReg_changesOnly s (chanSlot c) .timeLeft v
    ready.of_changesOnly changes ((ready.enginesSafe c).of_changesOnly changes (by decide))
  by_cases last : s.reg (chanSlot c) .timeLeft = 1
  · rw [durationStep_of_last last]
    exact (counted 0).serve_runs (.seqReq c)
  · exact ⟨_, durationStep_of_more last, counted _⟩

theorem PullReady.chTick_runs (ready : PullReady s) (c : Fin 4) :
    ∃ t, chTick c s = .next t ∧ PullReady t := by
  have ramped := ready.of_changesOnly (ramps_changesOnly (chanSlot c) s) (ready.enginesSafe c).ramps
  obtain ⟨u, modulates⟩ := (ready.enginesSafe c).effectiveFreq_runs
  have freq := effectiveFreq_changesOnly modulates
  have modulated := ramped.of_changesOnly freq
    ((ramped.enginesSafe c).of_changesOnly freq (by decide))
  have released := modulated.of_changesOnly (noteOff_changesOnly (chanSlot c) u)
    (modulated.enginesSafe c).noteOff
  obtain ⟨v, steps, engines⟩ := (released.enginesSafe c).hullStep_runs
  rw [chTick, modulates, andThen_next, steps, andThen_next]
  exact (released.of_changesOnly (hullStep_changesOnly steps) engines).durationStep_runs c

theorem PullReady.tickChannel_runs (ready : PullReady s) (c : Fin 4) :
    ∃ t, tickChannel c s = .next t ∧ PullReady t := by
  by_cases inactive : s.reg (chanSlot c) .timeLeft = 0
  · exact ⟨s, tickChannel_of_inactive inactive, ready⟩
  · rw [tickChannel_of_active inactive]
    exact ready.chTick_runs c

theorem PullReady.tickChannels_runs (ready : PullReady s) :
    ∃ t, tickChannels s = .next t ∧ PullReady t := by
  obtain ⟨a, turn_0, ready_a⟩ := ready.tickChannel_runs 0
  obtain ⟨b, turn_1, ready_b⟩ := ready_a.tickChannel_runs 1
  obtain ⟨d, turn_2, ready_d⟩ := ready_b.tickChannel_runs 2
  rw [tickChannels, turn_0, andThen_next, turn_1, andThen_next, turn_2, andThen_next]
  exact ready_d.tickChannel_runs 3

theorem PullReady.idleStep_runs (ready : PullReady s) (was : Bool) :
    ∃ t, idleStep was s = .next t ∧ PullReady t := by
  unfold idleStep
  split
  · exact ready.serve_runs .idle
  · exact ⟨s, rfl, ready⟩

theorem PullReady.tick_runs (ready : PullReady s) : ∃ t, tick s = .next t ∧ PullReady t := by
  obtain ⟨u, turns, ready_u⟩ := ready.tickChannels_runs
  have music := ready_u.of_sameRegisters (hostFrame_closedUnderPull.music u)
    fun sl r => State.reg_congr (musicTimerStep_ch u) sl r
  obtain ⟨v, ends, ready_v⟩ := music.idleStep_runs (anyActive s)
  rw [tick, turns, andThen_next, ends, andThen_next]
  exact ⟨_, rfl, ready_v.of_sameRegisters (hostFrame_closedUnderPull.tickCount v _) fun _ _ => rfl⟩

/-! ## `PULL` -/

theorem PullReady.frameStep_runs (ready : PullReady s) :
    ∃ t, frameStep s = .next t ∧ PullReady t := by
  have ⟨set, _⟩ := ready
  obtain ⟨t, rendered⟩ := Machine.frameStep_runs set
  obtain ⟨-, -, frame⟩ := frameStepEmitsOneFrame
  obtain ⟨-, registers, -⟩ := frame s t rendered
  exact ⟨t, rendered,
    ready.of_sameRegisters (hostFrame_closedUnderPull.frameStep_rel rendered) registers⟩

end

theorem pullReady_runsUnderPull : RunsUnderPull PullReady where
  frame := PullReady.frameStep_runs
  tick := PullReady.tick_runs
  divider v ready := ready.of_sameRegisters (hostFrame_closedUnderPull.divider _ v) fun _ _ => rfl

/-- Settles O50: frames and ticks complete and keep the duties, so the loop runs to its end; the count of
its frames is that of every `PULL` that completes. -/
theorem pullCompletesWhenReady : Obligations.PullCompletesWhenReady := by
  intro n s ready
  obtain ⟨t, ran, ready_t⟩ := pullReady_runsUnderPull.exec_pull_runs n ready
  exact ⟨t, ran, (pullFrames_emitted (exec_pull n s ▸ ran)).length, ready_t⟩

end Sys2Proof.Machine
end
